-- ==== Sys2Proof/Word.lean ====
section
/-! DEFINITION. The fixed widths of the block (00_scope.md R8): bytes, 32-bit data words (also bus addresses, counts and
handles) and 64-bit trace records. All are plain bit vectors; `+`, `-`, `>>>` and `<` on them are the unsigned operations
modulo 2^n that R9 writes `+_32`, `-_32`, `>>` and `<`. -/

namespace Sys2Proof

/-- One byte of the bus space (R60). -/
abbrev Byte := BitVec 8

/-- A 32-bit data word, bus address, word count, byte count, counter or handle (R8). -/
abbrev Word := BitVec 32

/-- One 64-bit trace record of format `TRC` (R92). -/
abbrev Record := BitVec 64

end Sys2Proof
end

