-- ==== Sys2Proof/Syntax.lean ====
section
/-! DEFINITION. The syntax: the five agents, buffer ids, the 22 actions of the action map (30_encoding.md R90) as they stand in a trace
record (R92, R93, R94), and the turns of which a schedule is made. -/

namespace Sys2Proof

/-- The agents (R3), one constructor each: the scheduler, the transfer engine's channel, the Serial Output Engine, the Block
Source, the host. `RESET` is the system's, which is no agent (R90). -/
inductive Agent where
  | sch
  | dma
  | soe
  | src
  | host
deriving DecidableEq, Repr, Inhabited

/-- A buffer id (R9, R15): 0 is buffer A, 1 is buffer B. -/
inductive Buf where
  | a
  | b
deriving DecidableEq, Repr, Inhabited

/-- The action set (R90), one constructor per row of spec/opcode_table.json. A constructor's arguments are the fields its
record carries (R92): `buf` is `BUF`, `err` is `ERR`, `ofs` is `OFS`, the last one is `ARG`. Fields that R93, R94 and R96
fix are not arguments. -/
inductive Instr where
  /-- 0x01, R142. -/
  | startOpen
  /-- 0x02, R143; `len` is the length requested. -/
  | openOk (len : Word)
  /-- 0x03, R144; `ERR` is always 1. -/
  | openFail
  /-- 0x10, R150; `ERR` is always 1. -/
  | primeErr
  /-- 0x11, R151. -/
  | primeEmpty
  /-- 0x12, R152; `bytes` is the byte count of the response consumed. -/
  | primeShort (bytes : Word)
  /-- 0x13, R153; `words` is the word count issued. -/
  | primeIssue (words : Word)
  /-- 0x20, R160; `len` is the length requested. -/
  | fillReq (buf : Buf) (len : Word)
  /-- 0x21, R161; `ERR` is always 1. -/
  | fillErr (buf : Buf)
  /-- 0x22, R162. -/
  | fillEos (buf : Buf)
  /-- 0x23, R163; `bytes` is the byte count of the response consumed. -/
  | fillShort (buf : Buf) (bytes : Word)
  /-- 0x24, R164; `bytes` is the byte count of the response consumed. -/
  | fillOk (buf : Buf) (bytes : Word)
  /-- 0x25, R165; `words` is the word count issued. -/
  | waitIssue (buf : Buf) (words : Word)
  /-- 0x30, R180. -/
  | closeDone
  /-- 0x40, R140; the host writes `value` at register offset `ofs`. -/
  | hostWrite (ofs : BitVec 8) (value : Word)
  /-- 0x41, R141; the host reads register offset `ofs`; `value` is what the read returned. -/
  | hostRead (ofs : BitVec 8) (value : Word)
  /-- 0x50, R133; `word` is the word moved. -/
  | dmaMove (buf : Buf) (word : Word)
  /-- 0x60, R123; `word` is the word emitted. -/
  | soeEmit (word : Word)
  /-- 0x70, R192; the draw (`err`, `handle`). -/
  | srcOpenRsp (err : Bool) (handle : Word)
  /-- 0x71, R193; the draw (`err`, `bytes`); its data bytes are not in the record. -/
  | srcReadRsp (buf : Buf) (err : Bool) (bytes : Word)
  /-- 0x72, R194. -/
  | srcCloseRsp
  /-- 0xF0, R230. -/
  | reset
deriving DecidableEq, Repr, Inhabited

/-- The width of a host-space access in bits; only 32 has a meaning (R89). DESIGN CHOICE (notes/assumptions/24.md): the spec
does not say which widths there are, and the model admits every number of bits. -/
abbrev AccessWidth := Nat

/-- A raw access of the host to the host register space (R60), before R89 sorts it. `addr` is its lowest address. `write =
none` is a read; `write = some v` writes `v` (the low 32 bits, all that a meaningful access has). -/
structure HostAccess where
  addr : Word
  width : AccessWidth
  write : Option Word
deriving DecidableEq, Repr, Inhabited

/-- One turn of a schedule: what is offered to the machine next (notes/assumptions/1.md). -/
inductive Turn where
  /-- One action, written as its trace record (95_test_vectors.md section 3: a program is its trace). -/
  | action (rec : Record)
  /-- A raw host access, which may have any width and alignment (R89). -/
  | hostAccess (acc : HostAccess)
  /-- A raw response of the Block Source, three words of format `SRSP` (R106). -/
  | response (w0 w1 w2 : Word)
deriving DecidableEq, Repr, Inhabited

end Sys2Proof
end

