-- ==== Sys2Proof/WellFormed.lean ====
section
/-! DEFINITION. Well-formed actions: those that have a trace record. R93 fixes one field by another one: a
`SRC_OPEN_RSP` that reports an error has `ARG` 0. Every other combination of arguments has a record. -/

namespace Sys2Proof

/-- R93, row `SRC_OPEN_RSP`: "the handle returned; 0 when `ERR = 1`". -/
def Instr.wellFormed : Instr → Bool
  | .srcOpenRsp err handle => !err || handle == 0#32
  | .startOpen | .openOk _ | .openFail | .primeErr | .primeEmpty | .primeShort _ | .primeIssue _ | .fillReq _ _
  | .fillErr _ | .fillEos _ | .fillShort _ _ | .fillOk _ _ | .waitIssue _ _ | .closeDone | .hostWrite _ _ | .hostRead _ _
  | .dmaMove _ _ | .soeEmit _ | .srcReadRsp _ _ _ | .srcCloseRsp | .reset => true

end Sys2Proof
end

