-- ==== Sys2Proof/Decode.lean ====
section
/-! DEFINITION. Trace records (format `TRC`, 30_encoding.md R92): the total decoder of R110 with the INVALID cases of R96,
and the encoder, written from R90, R92, R93 and R94. -/

namespace Sys2Proof

/-- R9, R24: bit value of a buffer id. -/
def Buf.toBit : Buf → Bool
  | .a => false
  | .b => true

/-- R9, R24: the buffer id of a bit. -/
def Buf.ofBit : Bool → Buf
  | false => .a
  | true => .b

/-- R90: the action code `ACT`. -/
def actCode : Instr → BitVec 8
  | .startOpen => 0x01#8
  | .openOk _ => 0x02#8
  | .openFail => 0x03#8
  | .primeErr => 0x10#8
  | .primeEmpty => 0x11#8
  | .primeShort _ => 0x12#8
  | .primeIssue _ => 0x13#8
  | .fillReq _ _ => 0x20#8
  | .fillErr _ => 0x21#8
  | .fillEos _ => 0x22#8
  | .fillShort _ _ => 0x23#8
  | .fillOk _ _ => 0x24#8
  | .waitIssue _ _ => 0x25#8
  | .closeDone => 0x30#8
  | .hostWrite _ _ => 0x40#8
  | .hostRead _ _ => 0x41#8
  | .dmaMove _ _ => 0x50#8
  | .soeEmit _ => 0x60#8
  | .srcOpenRsp _ _ => 0x70#8
  | .srcReadRsp _ _ _ => 0x71#8
  | .srcCloseRsp => 0x72#8
  | .reset => 0xF0#8

/-- R94: the field `BUF` of an action's record. -/
def bufBit : Instr → Bool
  | .fillReq f _ | .fillErr f | .fillEos f | .fillShort f _ | .fillOk f _ | .waitIssue f _ | .dmaMove f _
  | .srcReadRsp f _ _ => f.toBit
  | .startOpen | .openOk _ | .openFail | .primeErr | .primeEmpty | .primeShort _ | .primeIssue _ | .closeDone
  | .hostWrite _ _ | .hostRead _ _ | .soeEmit _ | .srcOpenRsp _ _ | .srcCloseRsp | .reset => false

/-- R94: the field `ERR` of an action's record. -/
def errBit : Instr → Bool
  | .openFail | .primeErr | .fillErr _ => true
  | .srcOpenRsp err _ => err
  | .srcReadRsp _ err _ => err
  | .startOpen | .openOk _ | .primeEmpty | .primeShort _ | .primeIssue _ | .fillReq _ _ | .fillEos _ | .fillShort _ _
  | .fillOk _ _ | .waitIssue _ _ | .closeDone | .hostWrite _ _ | .hostRead _ _ | .dmaMove _ _ | .soeEmit _ | .srcCloseRsp
  | .reset => false

/-- R92: the field `OFS` of an action's record. -/
def ofsField : Instr → BitVec 8
  | .hostWrite ofs _ | .hostRead ofs _ => ofs
  | .startOpen | .openOk _ | .openFail | .primeErr | .primeEmpty | .primeShort _ | .primeIssue _ | .fillReq _ _
  | .fillErr _ | .fillEos _ | .fillShort _ _ | .fillOk _ _ | .waitIssue _ _ | .closeDone | .dmaMove _ _ | .soeEmit _
  | .srcOpenRsp _ _ | .srcReadRsp _ _ _ | .srcCloseRsp | .reset => 0#8

/-- R93: the field `ARG` of an action's record. -/
def argField : Instr → Word
  | .openOk x | .primeShort x | .primeIssue x | .fillReq _ x | .fillShort _ x | .fillOk _ x | .waitIssue _ x
  | .hostWrite _ x | .hostRead _ x | .dmaMove _ x | .soeEmit x | .srcOpenRsp _ x | .srcReadRsp _ _ x => x
  | .startOpen | .openFail | .primeErr | .primeEmpty | .fillErr _ | .fillEos _ | .closeDone | .srcCloseRsp | .reset => 0#32

/-- R92: `{ARG[31:0], 8'b0, OFS[7:0], 6'b0, ERR, BUF, ACT[7:0]}`. -/
def packRecord (act : BitVec 8) (buf err : Bool) (ofs : BitVec 8) (arg : Word) : Record :=
  arg ++ 0#8 ++ ofs ++ 0#6 ++ BitVec.ofBool err ++ BitVec.ofBool buf ++ act

/-- R92: the record of an action. -/
def encode (i : Instr) : Record := packRecord (actCode i) (bufBit i) (errBit i) (ofsField i) (argField i)

/-- R110, second half: the action of code `act` with these fields, or none (INVALID). `BUF`, `ERR`, `OFS` and `ARG` are
checked where R93, R94 and R96 fix them (notes/assumptions/10.md). DESIGN CHOICE (the same entry): the `ARG` of `OPEN_OK` and
`FILL_REQ`, which R93 equates with the parameter `P_BUFFER_SIZE`, is accepted with any value. -/
def decodeFields (act : BitVec 8) (buf err : Bool) (ofs : BitVec 8) (arg : Word) : Option Instr :=
  match act with
  | 0x01#8 => if !buf && !err && ofs == 0#8 && arg == 0#32 then some .startOpen else none
  | 0x02#8 => if !buf && !err && ofs == 0#8 then some (.openOk arg) else none
  | 0x03#8 => if !buf && err && ofs == 0#8 && arg == 0#32 then some .openFail else none
  | 0x10#8 => if !buf && err && ofs == 0#8 && arg == 0#32 then some .primeErr else none
  | 0x11#8 => if !buf && !err && ofs == 0#8 && arg == 0#32 then some .primeEmpty else none
  | 0x12#8 => if !buf && !err && ofs == 0#8 then some (.primeShort arg) else none
  | 0x13#8 => if !buf && !err && ofs == 0#8 then some (.primeIssue arg) else none
  | 0x20#8 => if !err && ofs == 0#8 then some (.fillReq (Buf.ofBit buf) arg) else none
  | 0x21#8 => if err && ofs == 0#8 && arg == 0#32 then some (.fillErr (Buf.ofBit buf)) else none
  | 0x22#8 => if !err && ofs == 0#8 && arg == 0#32 then some (.fillEos (Buf.ofBit buf)) else none
  | 0x23#8 => if !err && ofs == 0#8 then some (.fillShort (Buf.ofBit buf) arg) else none
  | 0x24#8 => if !err && ofs == 0#8 then some (.fillOk (Buf.ofBit buf) arg) else none
  | 0x25#8 => if !err && ofs == 0#8 then some (.waitIssue (Buf.ofBit buf) arg) else none
  | 0x30#8 => if !buf && !err && ofs == 0#8 && arg == 0#32 then some .closeDone else none
  | 0x40#8 => if !buf && !err then some (.hostWrite ofs arg) else none
  | 0x41#8 => if !buf && !err then some (.hostRead ofs arg) else none
  | 0x50#8 => if !err && ofs == 0#8 then some (.dmaMove (Buf.ofBit buf) arg) else none
  | 0x60#8 => if !buf && !err && ofs == 0#8 then some (.soeEmit arg) else none
  | 0x70#8 => if !buf && ofs == 0#8 && (!err || arg == 0#32) then some (.srcOpenRsp err arg) else none
  | 0x71#8 => if ofs == 0#8 then some (.srcReadRsp (Buf.ofBit buf) err arg) else none
  | 0x72#8 => if !buf && !err && ofs == 0#8 && arg == 0#32 then some .srcCloseRsp else none
  | 0xF0#8 => if !buf && !err && ofs == 0#8 && arg == 0#32 then some .reset else none
  | _ => none

/-- R110: the total decoder; `none` is INVALID (R96). Bits 15:10 and 31:24 are reserved (R92). -/
def decode (r : Record) : Option Instr :=
  if r.extractLsb' 10 6 == 0#6 && r.extractLsb' 24 8 == 0#8 then
    decodeFields (r.extractLsb' 0 8) (r.getLsbD 8) (r.getLsbD 9) (r.extractLsb' 16 8) (r.extractLsb' 32 32)
  else none

/-- The record that a row of spec/opcode_table.json with `nbits` bits gives when its bits are `w`; every bit above `nbits`
is 0. Bit 0 of the table is bit 0 of the record (R92). -/
def tableRecord (nbits w : Nat) : Record := BitVec.ofNat 64 (w % 2 ^ nbits)

/-- The action the decoder reads from a row's word. -/
def decodeTableWord (nbits w : Nat) : Option Instr := decode (tableRecord nbits w)

end Sys2Proof
end

