-- ==== Sys2Proof/Config.lean ====
section
/-! DEFINITION. What an implementation fixes (the parameters of 00_scope.md R6 with the constraints of R6 and R7) and the
free values the spec leaves open (93_implementation_defined.md, treatment "any value"). -/

namespace Sys2Proof

/-- `P_SHIFT_ORDER` (R6, R124). -/
inductive ShiftOrder where
  | msbFirst
  | lsbFirst
deriving DecidableEq, Repr

/-- `P_SOURCE_NAME` is an opaque value (R6, D33): a token that no rule looks into (notes/assumptions/19.md). -/
abbrev SourceName := Nat

/-- The parameters of R6, unchecked. `P_BUFFER_SIZE <= 2^32 - 4`, so it has 32 bits. -/
structure Params where
  bufferSize : Word
  baseA : Word
  baseB : Word
  txfAddr : Word
  queueDepth : Nat
  shiftOrder : ShiftOrder
  sourceName : SourceName
  regBase : Word
deriving DecidableEq, Repr

/-- Two byte ranges `[x, x + n)` and `[y, y + m)` have no common byte. -/
def rangesDisjoint (x n y m : Nat) : Bool := decide (x + n ≤ y) || decide (y + m ≤ x)

/-- The constraints of R6 (sizes, alignment, depth) and R7 (disjoint regions, queue port outside both, no wrap). -/
def Params.valid (p : Params) : Bool :=
  decide (4 ≤ p.bufferSize.toNat) && p.bufferSize.toNat % 4 == 0 &&
  p.baseA.toNat % 4 == 0 && p.baseB.toNat % 4 == 0 && p.txfAddr.toNat % 4 == 0 && p.regBase.toNat % 4 == 0 &&
  decide (1 ≤ p.queueDepth) &&
  rangesDisjoint p.baseA.toNat p.bufferSize.toNat p.baseB.toNat p.bufferSize.toNat &&
  rangesDisjoint p.baseA.toNat p.bufferSize.toNat p.txfAddr.toNat 4 &&
  rangesDisjoint p.baseB.toNat p.bufferSize.toNat p.txfAddr.toNat 4 &&
  decide (p.baseA.toNat + p.bufferSize.toNat ≤ 4294967296) && decide (p.baseB.toNat + p.bufferSize.toNat ≤ 4294967296)

/-- A parameter set that meets the constraints: "A model is instantiated only with parameters that meet them" (R7). -/
structure ValidParams extends Params where
  ok : toParams.valid = true
deriving DecidableEq, Repr

/-- The parameter set `PS16` of 95_test_vectors.md section 0. -/
def Params.ps16 : Params where
  bufferSize := 16#32
  baseA := 0x20000000#32
  baseB := 0x20000010#32
  txfAddr := 0x50200010#32
  queueDepth := 4
  shiftOrder := .msbFirst
  sourceName := 0
  regBase := 0#32

/-- `PS16` meets R6 and R7. -/
def ValidParams.ps16 : ValidParams := ⟨Params.ps16, by decide⟩

/-- `P_WAIT_TIMEOUT` is fixed to `NONE` (R6, R214): no meaning has a timeout. -/
def Config.waitTimeout : Option Nat := none

/-- FREE VALUE (notes/assumptions/1.md). Which turn comes next once the placed schedule is used up: "every schedule is
admitted, and claims hold for all" (93_implementation_defined.md, R12, R211). Applied to the counter `env.turns`. -/
opaque Config.freeTurn : Nat → Turn

/-- FREE VALUE (notes/assumptions/4.md). The data bytes a read answer delivers beyond the placed feed: the source's answers
are draws (R193, R196). Applied to the counter `env.draws`. -/
opaque Config.freeByte : Nat → Byte

end Sys2Proof
end

