-- ==== Sys2Proof/Machine/State.lean ====
section
/-! DEFINITION. The state of the machine: every register of 10_state.md under its own name, grouped by agent (SCH, DMA,
SOE), the buffer memory, the marks and logs, the configuration, and the model's own schedule; the state after reset. -/

namespace Sys2Proof.Machine

/-- `SCH.ST` (R20), a 3-bit register; codes 5 to 7 are reserved, never written by any rule. -/
inductive St where
  | idle
  | primed
  | streaming
  | done
  | halted
  | reserved5
  | reserved6
  | reserved7
deriving DecidableEq, Repr

/-- `SCH.PH` (R21), a 3-bit register; `opn` is the phase OPEN. -/
inductive Ph where
  | ready
  | opn
  | prime
  | issued
  | fill
  | wait
  | close
  | stop
deriving DecidableEq, Repr

/-- `SCH.CAUSE` (R29), a 3-bit register; codes 5 to 7 are reserved, never written. -/
inductive Cause where
  | none
  | endOfSource
  | sourceOpenError
  | emptySource
  | sourceReadError
  | reserved5
  | reserved6
  | reserved7
deriving DecidableEq, Repr

/-- The diagnostic message codes (R103) as `SCH.MSG` holds them (R30), a 3-bit register; codes 5 to 7 are reserved. -/
inductive Msg where
  | none
  | openFail
  | empty
  | readErr
  | eos
  | reserved5
  | reserved6
  | reserved7
deriving DecidableEq, Repr

/-- The source operations (R105), 2 bits; `opn` is OPEN, code 3 is reserved. -/
inductive SrcOp where
  | opn
  | read
  | close
  | reserved
deriving DecidableEq, Repr

/-- `SCH.REQ` (R35): the request register to the Block Source. -/
structure Req where
  valid : Bool
  op : SrcOp
  buf : Buf
  len : Word
  handle : Word
  name : Option SourceName
deriving DecidableEq, Repr

/-- `SCH.RSP` (R36): the response register the Block Source writes. -/
structure Rsp where
  valid : Bool
  op : SrcOp
  err : Bool
  bytes : Word
  handle : Word
deriving DecidableEq, Repr

/-- The scheduler's registers (R20 to R36). -/
structure Sch where
  st : St
  ph : Ph
  active : Buf
  startPend : Bool
  handle : Word
  hvalid : Bool
  ownA : Bool
  ownB : Bool
  pendWords : Word
  cause : Cause
  msg : Msg
  xferCount : Word
  lastWords : Word
  lastBytes : Word
  req : Req
  rsp : Rsp
deriving DecidableEq, Repr

/-- The transfer engine's channel (R38, R39). -/
structure Dma where
  readAddr : Word
  writeAddr : Word
  count : Word
  buf : Buf
  incrRead : Bool
  incrWrite : Bool
  dataSize : BitVec 2
  busy : Bool
  done : Bool
deriving DecidableEq, Repr

/-- `SOE.LINE` (R40): "one bit, or `unspecified`". No meaning reads it (R125, notes/assumptions/9.md). -/
inductive Line where
  | unspecified
  | level (bit : Bool)
deriving DecidableEq, Repr

/-- The Serial Output Engine (R40). -/
structure Soe where
  q : List Word
  line : Line
  out : List Bool
deriving DecidableEq, Repr

/-- `BUFMEM` (R42): (address, byte) pairs, addresses strictly rising; an unlisted address is `unwritten`. -/
abbrev Memory := List Host.Cell

/-- The canonical form of memory. No listed entry can equal what an unlisted address reads as, since that is no byte. -/
abbrev Memory.wf (m : Memory) : Prop := m.Pairwise fun x y => x.1 < y.1

/-- The MODEL's own part of the state: the schedule still to be taken and the source's data bytes (notes/assumptions/1.md,
notes/assumptions/4.md), each followed by a counter of the free values drawn once it is used up. -/
structure Env where
  program : List Turn
  turns : Nat
  feed : List Byte
  draws : Nat
deriving DecidableEq, Repr

/-- The whole state. `params` is the configuration: no step writes it (R6, notes/assumptions/5.md). `faults` holds fault
`f` as bit `f` (R37, R207). -/
structure State where
  params : ValidParams
  sch : Sch
  dma : Dma
  soe : Soe
  bufmem : Memory
  faults : BitVec 10
  refused : Bool
  trace : List Record
  console : List Msg
  env : Env
deriving DecidableEq, Repr

/-- The fault table (R207). A fault of the spec does not stop the machine: raising it is a NEXT state with its bit set
(R208, notes/assumptions/15.md), so no meaning and no step ends in `Outcome.fault`. -/
inductive Fault where
  /-- Bit 0. Raised by `Issue`, `SrcRequest` and `SRC_READ_RSP` on a buffer in flight. Safe: recorded, no effect. -/
  | ownership
  /-- Bit 1. Raised by `Issue` on a live channel. Safe: recorded, no effect. -/
  | dmaBusy
  /-- Bit 2. Raised by `Issue` for 0 words. Safe: recorded, no effect. -/
  | zeroLen
  /-- Bit 3. Raised by `Issue`, `MemRead` and `MemWrite` outside the buffers. Safe: recorded, no effect. -/
  | busRange
  /-- Bit 4. Raised by `MemRead` at an address that is no multiple of 4. Safe: recorded, no effect. -/
  | misaligned
  /-- Bit 5. Raised by `MemRead` of a byte no fill has written. Safe: recorded, no effect. -/
  | unwrittenRead
  /-- Bit 6. Raised by `QueuePush` onto a full queue. Safe: recorded, no effect. -/
  | queueOverflow
  /-- Bit 7. Raised by `SRC_READ_RSP` outside the source's contract and by a response with `OP = 3`. Safe: recorded. -/
  | srcContract
  /-- Bit 8. Raised by `SrcRequest` while a request or a response is outstanding. Safe: recorded, no effect. -/
  | protocol
  /-- Bit 9. Raised by a scheduler step in a state with a reserved code or pair (R22). Safe: recorded, no effect. -/
  | badState
deriving DecidableEq, Repr

/-- What the model gives no meaning. No meaning and no step answers with either of them. -/
inductive Refusal where
  /-- An instruction without a meaning yet, rejected by name in exec's arm; no arm does so. Safe: the model stops. -/
  | notModelled (mnemonic : String)
  /-- `State.configure` on a parameter set that breaks R6 or R7: "refused at configuration time". Safe: no machine. -/
  | badParameters
deriving DecidableEq, Repr

/-- The reset table R47 for the parameters `p`, before the record of the reset itself is traced; the environment `e` is
none of the machine's state. Values R47 leaves unspecified: notes/assumptions/6.md, 7.md and 8.md. -/
def State.cleared (p : ValidParams) (e : Env) : State where
  params := p
  sch :=
    { st := .idle, ph := .ready, active := .a, startPend := false, handle := 0#32, hvalid := false
      ownA := false, ownB := false, pendWords := 0#32, cause := .none, msg := .none
      xferCount := 0#32, lastWords := 0#32, lastBytes := 0#32
      req := { valid := false, op := .opn, buf := .a, len := 0#32, handle := 0#32, name := none }
      rsp := { valid := false, op := .opn, err := false, bytes := 0#32, handle := 0#32 } }
  dma :=
    { readAddr := 0#32, writeAddr := 0#32, count := 0#32, buf := .a, incrRead := false, incrWrite := false
      dataSize := 0#2, busy := false, done := false }
  soe := { q := [], line := .unspecified, out := [] }
  bufmem := []
  faults := 0#10
  refused := false
  trace := []
  console := []
  env := e

/-- The state just after the power-on `RESET` under the parameters `p` (R231, premise INIT): the reset table with
`TRACE = [0x00000000_000000F0]`, nothing placed in the schedule or the feed. -/
def State.powerOn (p : ValidParams) : State :=
  { State.cleared p { program := [], turns := 0, feed := [], draws := 0 } with trace := [0x00000000000000F0#64] }

/-- The machine right after reset, under the spec's own parameter set PS16 (notes/assumptions/5.md). -/
def State.reset : State := State.powerOn ValidParams.ps16

/-- R7: "a parameter set that violates them is refused at configuration time". -/
def State.configure (p : Params) : Host.Outcome State Fault Refusal :=
  if h : p.valid = true then .next (State.powerOn ⟨p, h⟩) else .refused .badParameters

end Sys2Proof.Machine
end

