-- ==== Sys2Proof/Machine/Operands.lean ====
section
/-! DEFINITION. Operand forms: the buffer an action concerns, the word count of a byte count, the source's data bytes, the
host register window, and the bit codes of the enumerations (30_encoding.md R102). -/

namespace Sys2Proof.Machine

/-- The outcome type of every meaning. -/
abbrev Answer := Host.Outcome State Fault Refusal

/-- R9: `1 - i` is the other buffer. -/
def otherBuf : Buf → Buf
  | .a => .b
  | .b => .a

/-- R6: `P_BUF_BASE[i]`. -/
def bufBase (p : Params) : Buf → Word
  | .a => p.baseA
  | .b => p.baseB

/-- R10: `SCH.OWN[i]`. -/
def Sch.own (c : Sch) : Buf → Bool
  | .a => c.ownA
  | .b => c.ownB

/-- R10: `SCH.OWN[i] <- v`. -/
def Sch.setOwn (c : Sch) (i : Buf) (v : Bool) : Sch :=
  match i with
  | .a => { c with ownA := v }
  | .b => { c with ownB := v }

/-- R24: the fillable buffer `1 - SCH.ACTIVE`. -/
def State.fillable (s : State) : Buf := otherBuf s.sch.active

/-- R100: the word count `bytes_read >> 2` of a byte count. -/
def wordCount (bytes : Word) : Word := bytes >>> 2

/-- R193, the draw `d`: the next `n` data bytes of the source, from the feed and past its end from the free values. -/
def Env.bytes (e : Env) (n : Nat) : List Byte :=
  e.feed.take n ++ (List.range (n - e.feed.length)).map fun k => Config.freeByte (e.draws + k)

/-- The environment after the source has delivered `n` data bytes. -/
def Env.afterBytes (e : Env) (n : Nat) : Env :=
  { e with feed := e.feed.drop n, draws := e.draws + (n - e.feed.length) }

/-- R20: the code of `ST`. -/
def St.code : St → BitVec 3
  | .idle => 0#3
  | .primed => 1#3
  | .streaming => 2#3
  | .done => 3#3
  | .halted => 4#3
  | .reserved5 => 5#3
  | .reserved6 => 6#3
  | .reserved7 => 7#3

/-- R21: the code of `PH`. -/
def Ph.code : Ph → BitVec 3
  | .ready => 0#3
  | .opn => 1#3
  | .prime => 2#3
  | .issued => 3#3
  | .fill => 4#3
  | .wait => 5#3
  | .close => 6#3
  | .stop => 7#3

/-- R29: the code of `CAUSE`. -/
def Cause.code : Cause → BitVec 3
  | .none => 0#3
  | .endOfSource => 1#3
  | .sourceOpenError => 2#3
  | .emptySource => 3#3
  | .sourceReadError => 4#3
  | .reserved5 => 5#3
  | .reserved6 => 6#3
  | .reserved7 => 7#3

/-- R103: the code of a diagnostic message. -/
def Msg.code : Msg → BitVec 3
  | .none => 0#3
  | .openFail => 1#3
  | .empty => 2#3
  | .readErr => 3#3
  | .eos => 4#3
  | .reserved5 => 5#3
  | .reserved6 => 6#3
  | .reserved7 => 7#3

/-- R105: the code of a source operation. -/
def SrcOp.code : SrcOp → BitVec 2
  | .opn => 0#2
  | .read => 1#2
  | .close => 2#2
  | .reserved => 3#2

/-- R105: the source operation of a code. -/
def srcOpOfCode (c : BitVec 2) : SrcOp :=
  match c with
  | 0#2 => .opn
  | 1#2 => .read
  | 2#2 => .close
  | _ => .reserved

/-- R207: a fault's number, which is its bit in `FAULTS`. -/
def Fault.number : Fault → Nat
  | .ownership => 0
  | .dmaBusy => 1
  | .zeroLen => 2
  | .busRange => 3
  | .misaligned => 4
  | .unwrittenRead => 5
  | .queueOverflow => 6
  | .srcContract => 7
  | .protocol => 8
  | .badState => 9

/-- R37: the fault's bit in `FAULTS`. -/
def Fault.mask (f : Fault) : BitVec 10 := 1#10 <<< f.number

/-- R89: a host-space address lies in the block's window `[P_REG_BASE, P_REG_BASE + 0x20)`. -/
def inWindow (p : Params) (addr : Word) : Bool :=
  decide (p.regBase.toNat ≤ addr.toNat) && decide (addr.toNat < p.regBase.toNat + 0x20)

/-- R85: the offset of a host-space address in the window. -/
def windowOffset (p : Params) (addr : Word) : BitVec 8 := BitVec.ofNat 8 (addr.toNat - p.regBase.toNat)

end Sys2Proof.Machine
end

