-- ==== Sys2Proof/Machine/Flags.lean ====
section
/-! DEFINITION. Derived flags and the host's view: `DRAINING` (10_state.md R34), the reachable control pairs (R22), the
`STATUS` register (30_encoding.md R86) and the value each register reads as (42_session_open.md R141). -/

namespace Sys2Proof.Machine

/-- R16: terminal means `SCH.ST` is DONE or HALTED. -/
def St.terminal : St → Bool
  | .done | .halted => true
  | .idle | .primed | .streaming | .reserved5 | .reserved6 | .reserved7 => false

/-- R34: `DRAINING = DMA.BUSY and (SCH.ST = DONE or SCH.ST = HALTED)`. -/
def State.draining (s : State) : Bool := s.dma.busy && s.sch.st.terminal

/-- R22: the eleven `(ST, PH)` pairs. -/
def pairAllowed : St → Ph → Bool
  | .idle, .ready | .idle, .opn | .idle, .prime => true
  | .primed, .issued => true
  | .streaming, .fill | .streaming, .wait | .streaming, .issued => true
  | .done, .close | .done, .stop => true
  | .halted, .close | .halted, .stop => true
  | _, _ => false

/-- R205: the codes of `CAUSE` that some rule writes. -/
def Cause.allowed : Cause → Bool
  | .none | .endOfSource | .sourceOpenError | .emptySource | .sourceReadError => true
  | .reserved5 | .reserved6 | .reserved7 => false

/-- R103: the codes of `MSG` that some rule writes or reset leaves. -/
def Msg.allowed : Msg → Bool
  | .none | .openFail | .empty | .readErr | .eos => true
  | .reserved5 | .reserved6 | .reserved7 => false

/-- R207, code 9: the scheduler holds neither a pair outside the eleven nor a reserved code. -/
def Sch.sound (c : Sch) : Bool := pairAllowed c.st c.ph && c.cause.allowed && c.msg.allowed

/-- R86: `STATUS = {13'b0, CAUSE[2:0], RSP.valid, REQ.valid, START_PEND, HVALID, DRAINING, DMA.DONE, DMA.BUSY, OWN[1],
OWN[0], ACTIVE, PH[2:0], ST[2:0]}`. -/
def State.status (s : State) : Word :=
  0#13 ++ s.sch.cause.code ++ BitVec.ofBool s.sch.rsp.valid ++ BitVec.ofBool s.sch.req.valid ++
    BitVec.ofBool s.sch.startPend ++ BitVec.ofBool s.sch.hvalid ++ BitVec.ofBool s.draining ++
    BitVec.ofBool s.dma.done ++ BitVec.ofBool s.dma.busy ++ BitVec.ofBool s.sch.ownB ++ BitVec.ofBool s.sch.ownA ++
    BitVec.ofBool s.sch.active.toBit ++ s.sch.ph.code ++ s.sch.st.code

/-- R141, R85, R88: the value of the host register at offset `ofs`. Only the eight legal offsets are ever asked for. None shows
`SCH.HANDLE`: R44 has the host read it, while R85, R86 and R141 give it no field, and the model follows these (DEDUCED,
notes/assumptions/26.md). -/
def State.hostRegister (s : State) (ofs : BitVec 8) : Word :=
  match ofs with
  | 0x00#8 => 0#32
  | 0x04#8 => s.status
  | 0x08#8 => s.sch.xferCount
  | 0x0C#8 => s.sch.lastWords
  | 0x10#8 => s.sch.lastBytes
  | 0x14#8 => s.sch.pendWords
  | 0x18#8 => s.params.bufferSize
  | 0x1C#8 => s.sch.msg.code.setWidth 32
  | _ => 0#32

/-- R89: an offset inside the window `[0, 0x20)`. -/
def offsetInside (ofs : BitVec 8) : Bool := decide (ofs < 0x20#8)

/-- R89: a 4-aligned offset. -/
def offsetAligned (ofs : BitVec 8) : Bool := ofs.extractLsb' 0 2 == 0#2

/-- R40, R101, R123: the 32 bits of a word in the order in which they leave the line. -/
def shiftBits (order : ShiftOrder) (w : Word) : List Bool :=
  match order with
  | .msbFirst => (List.range 32).map fun k => w.getLsbD (31 - k)
  | .lsbFirst => (List.range 32).map fun k => w.getLsbD k

end Sys2Proof.Machine
end

