-- ==== Sys2Proof/Machine/Formats.lean ====
section
/-! DEFINITION. The wire formats besides `TRC`: the Transfer Descriptor `DESC` (30_encoding.md R98, R99), the source request
`SRQ` (R104) and the source response `SRSP` (R106). `CMD` (R97) is bit 0 of the word written, read where R140 reads it. -/

namespace Sys2Proof.Machine

/-- Format `DESC` (R98) is four words; the type holds them in order. -/
abbrev DescWords := Word × Word × Word × Word

/-- R99: `CTRL_TRIG` for buffer `i`: `{26'b0, BUF, DATA_SIZE = 2, INCR_WRITE = 0, INCR_READ = 1, EN = 1}`. -/
def ctrlTrig (i : Buf) : Word := 0#26 ++ BitVec.ofBool i.toBit ++ 2#2 ++ 0#1 ++ 1#1 ++ 1#1

/-- R98: the descriptor `{READ_ADDR, WRITE_ADDR, TRANS_COUNT, CTRL_TRIG}` of buffer `i` and `w` words. -/
def descriptor (p : Params) (i : Buf) (w : Word) : DescWords := (bufBase p i, p.txfAddr, w, ctrlTrig i)

/-- R98, R99, R132: the channel after a descriptor has been written to it; `EN` triggers it, which sets `BUSY` and clears
`DONE`. -/
def Dma.load (d : Dma) (w : DescWords) : Dma where
  readAddr := w.1
  writeAddr := w.2.1
  count := w.2.2.1
  buf := Buf.ofBit (w.2.2.2.getLsbD 5)
  incrRead := w.2.2.2.getLsbD 1
  incrWrite := w.2.2.2.getLsbD 2
  dataSize := w.2.2.2.extractLsb' 3 2
  busy := w.2.2.2.getLsbD 0 || d.busy
  done := !w.2.2.2.getLsbD 0 && d.done

/-- R104: the three words of a request, format `SRQ`; the name of an `OPEN` travels beside them. -/
def Req.words (r : Req) : Word × Word × Word :=
  (0#29 ++ BitVec.ofBool r.buf.toBit ++ r.op.code, r.len, r.handle)

/-- R106: the three words of a response, format `SRSP`. -/
def Rsp.words (r : Rsp) : Word × Word × Word :=
  (0#29 ++ BitVec.ofBool r.err ++ r.op.code, r.bytes, r.handle)

/-- R106: the field `OP` of the first word of a response. -/
def srspOp (w0 : Word) : SrcOp := srcOpOfCode (w0.extractLsb' 0 2)

/-- R106: the field `ERR` of the first word of a response. -/
def srspErr (w0 : Word) : Bool := w0.getLsbD 2

end Sys2Proof.Machine
end

