-- ==== Sys2Proof/Machine/Ops.lean ====
section
/-! DEFINITION. The named operations: memory (20_memory.md R63, R64), the queue (R121), the pseudocode primitives of
00_scope.md R11 (`Issue`, `SrcRequest`, `Consume`, `Report`, `Trace`, `goto`), raising a fault and refusing an input, the
shape of a step with an `await` guard (R12), and fetching the next turn of the schedule. -/

namespace Sys2Proof.Machine

/-! ### Buffer memory -/

/-- R42: the byte at an address, or `none` where it is `unwritten`. -/
def Memory.read : Memory → Nat → Option Byte
  | [], _ => none
  | c :: m, a => if c.1 = a then some c.2 else Memory.read m a

/-- R42: `BUFMEM[a] <- v`, keeping the addresses strictly rising. -/
def Memory.write : Memory → Nat → Byte → Memory
  | [], a, v => [(a, v)]
  | c :: m, a, v =>
    if a < c.1 then (a, v) :: c :: m
    else if a = c.1 then (a, v) :: m
    else c :: Memory.write m a v

/-- R63, R64: the `n` bytes at `addr` lie in one of the two buffer regions. -/
def inBuffer (p : Params) (addr n : Nat) : Bool :=
  (decide (p.baseA.toNat ≤ addr) && decide (addr + n ≤ p.baseA.toNat + p.bufferSize.toNat)) ||
  (decide (p.baseB.toNat ≤ addr) && decide (addr + n ≤ p.baseB.toNat + p.bufferSize.toNat))

/-- R63: `MemRead(addr, 4)`, little-endian; the order of the faults is R209's. -/
def memRead (p : Params) (m : Memory) (addr : Word) : Except Fault Word :=
  if addr.toNat % 4 ≠ 0 then .error .misaligned
  else if inBuffer p addr.toNat 4 = false then .error .busRange
  else
    match m.read addr.toNat, m.read (addr.toNat + 1), m.read (addr.toNat + 2), m.read (addr.toNat + 3) with
    | some b0, some b1, some b2, some b3 => .ok (b3 ++ b2 ++ b1 ++ b0)
    | _, _, _, _ => .error .unwrittenRead

/-- R64: `MemWrite(addr, 1, v)`. -/
def memWrite (p : Params) (m : Memory) (addr : Nat) (v : Byte) : Except Fault Memory :=
  if inBuffer p addr 1 = false then .error .busRange else .ok (m.write addr v)

/-- R64, R193: byte `k` of `d` goes to `addr + k`, for every `k`, in order. -/
def memWriteAll (p : Params) (m : Memory) (addr : Nat) : List Byte → Except Fault Memory
  | [] => .ok m
  | v :: d =>
    match memWrite p m addr v with
    | .error f => .error f
    | .ok m' => memWriteAll p m' (addr + 1) d

/-! ### The queue -/

/-- R121: `QueuePush(w)`, the 32-bit write to `P_TXF_ADDR`. -/
def queuePush (p : Params) (q : List Word) (w : Word) : Except Fault (List Word) :=
  if p.queueDepth ≤ q.length then .error .queueOverflow else .ok (q ++ [w])

/-- R121: `QueuePop()`: the head and the rest; `none` where the queue is empty, which no caller meets. -/
def queuePop : List Word → Option (Word × List Word)
  | [] => none
  | w :: q => some (w, q)

/-! ### Register primitives -/

/-- R10: `goto (st, ph)`. -/
def State.goto (s : State) (st : St) (ph : Ph) : State := { s with sch := { s.sch with st := st, ph := ph } }

/-- R191: `Consume()`. -/
def State.consume (s : State) : State := { s with sch := { s.sch with rsp := { s.sch.rsp with valid := false } } }

/-- R33: `SCH.LAST_BYTES <- b`. -/
def State.setLastBytes (s : State) (b : Word) : State := { s with sch := { s.sch with lastBytes := b } }

/-- R206: `Report(m)`. -/
def State.report (s : State) (m : Msg) : State :=
  { s with console := s.console ++ [m], sch := { s.sch with msg := m } }

/-- R95: `Trace`: append the record of the action as it happened. -/
def State.emit (s : State) (i : Instr) : State := { s with trace := s.trace ++ [encode i] }

/-- R29: `SCH.CAUSE <- c`. -/
def State.setCause (s : State) (c : Cause) : State := { s with sch := { s.sch with cause := c } }

/-! ### Faults and refusals -/

/-- R208: `raise Fault(f)`: set the fault's bit; the step has no other effect. -/
def State.raise (s : State) (f : Fault) : State := { s with faults := s.faults ||| f.mask }

/-- R49, R89: a refused input sets `REFUSED` and has no other effect. -/
def State.refuse (s : State) : State := { s with refused := true }

/-- R208: a step that raised a fault is undone but for the fault's bit. -/
def settle (s : State) : Except Fault State → Answer
  | .ok t => .next t
  | .error f => .next (s.raise f)

/-- R12: a step with the guard `c` and the effect `r`. Where the guard does not hold the agent holds: nothing changes
(notes/assumptions/2.md). -/
def attempt (s : State) (c : Prop) [Decidable c] (r : Except Fault State) : Answer :=
  if c then settle s r else .next s

/-- R22, R207 code 9: a scheduler step raises `BAD_STATE` in a state that holds a reserved code or pair; otherwise it is
a step with a guard. -/
def schStep (s : State) (c : Prop) [Decidable c] (r : Except Fault State) : Answer :=
  if s.sch.sound = false then .next (s.raise .badState) else attempt s c r

/-! ### The transfer engine and the block source -/

/-- R131, the effect of `Issue(i, w)` past its checks: the descriptor is written to the channel, which triggers it. -/
def State.trigger (s : State) (i : Buf) (w : Word) : State :=
  { s with
    dma := s.dma.load (descriptor s.params.toParams i w)
    sch := { s.sch.setOwn i true with xferCount := s.sch.xferCount + 1#32, lastWords := w } }

/-- R131, R209: `Issue(i, w)`. -/
def issue (i : Buf) (w : Word) (s : State) : Except Fault State :=
  if s.dma.busy = true then .error .dmaBusy
  else if w = 0#32 then .error .zeroLen
  else if wordCount s.params.bufferSize < w then .error .busRange
  else if s.sch.own i = true then .error .ownership
  else .ok (s.trigger i w)

/-- R190, R104: the request register `SrcRequest(op, buf, len)` posts. -/
def State.request (s : State) (op : SrcOp) (buf : Buf) (len : Word) : Req where
  valid := true
  op := op
  buf := buf
  len := len
  handle := if op = .opn then 0#32 else s.sch.handle
  name := if op = .opn then some s.params.sourceName else none

/-- R190, R209: `SrcRequest(op, buf, len)`. -/
def srcRequest (op : SrcOp) (buf : Buf) (len : Word) (s : State) : Except Fault State :=
  if s.sch.req.valid = true ∨ s.sch.rsp.valid = true then .error .protocol
  else if op = .read ∧ s.sch.own buf = true then .error .ownership
  else .ok { s with sch := { s.sch with req := s.request op buf len } }

/-- R192 to R194: the source's answer `rsp` takes the place of the request. -/
def State.respond (s : State) (op : SrcOp) (err : Bool) (bytes handle : Word) : State :=
  { s with
    sch :=
      { s.sch with
        req := { s.sch.req with valid := false }
        rsp := { valid := true, op := op, err := err, bytes := bytes, handle := handle } } }

/-- R200, R201: cause entry, the one shared operation of the terminal transitions: consume the response, record the cause
and `LAST_BYTES = 0`, send the cause's message. The calling transition sends `close` and moves the control state. -/
def State.endSession (s : State) (c : Cause) (m : Msg) : State := ((s.consume.setLastBytes 0#32).setCause c).report m

/-- R201 with an open handle: cause entry after a read response, `close` sent, control state `(st, CLOSE)`. -/
def endAndClose (c : Cause) (m : Msg) (st : St) (i : Instr) (s : State) : Except Fault State :=
  (srcRequest .close .a 0#32 (s.endSession c m)).map fun t => (t.goto st .close).emit i

/-! ### The schedule -/

/-- The turn offered next: the head of the placed schedule, or the free value when none is left. -/
def State.nextTurn (s : State) : Turn :=
  match s.env.program with
  | t :: _ => t
  | [] => Config.freeTurn s.env.turns

/-- The state with that turn taken off the schedule. -/
def State.afterTurn (s : State) : State :=
  match s.env.program with
  | _ :: rest => { s with env := { s.env with program := rest } }
  | [] => { s with env := { s.env with turns := s.env.turns + 1 } }

/-- Place one record as the next turn. -/
def State.placeRecord (s : State) (r : Record) : State :=
  { s with env := { s.env with program := .action r :: s.env.program } }

end Sys2Proof.Machine
end

