-- ==== Sys2Proof/Machine/Guards.lean ====
section
/-! DEFINITION. The guards: the `await` clause of every action (00_scope.md R12), which actions are enabled, and whose step
an action is (R3, 30_encoding.md R90). -/

namespace Sys2Proof.Machine

/-- A read response with no error is waiting in phase `ph`. -/
abbrev State.readOk (s : State) (ph : Ph) : Prop :=
  s.sch.ph = ph ∧ s.sch.rsp.valid = true ∧ s.sch.rsp.op = .read ∧ s.sch.rsp.err = false

/-- R142. -/
abbrev canStartOpen (s : State) : Prop :=
  s.sch.st = .idle ∧ s.sch.ph = .ready ∧ s.sch.startPend = true ∧ s.sch.req.valid = false ∧ s.sch.rsp.valid = false

/-- R143. -/
abbrev canOpenOk (s : State) : Prop :=
  s.sch.ph = .opn ∧ s.sch.rsp.valid = true ∧ s.sch.rsp.op = .opn ∧ s.sch.rsp.err = false

/-- R144. -/
abbrev canOpenFail (s : State) : Prop :=
  s.sch.ph = .opn ∧ s.sch.rsp.valid = true ∧ s.sch.rsp.op = .opn ∧ s.sch.rsp.err = true

/-- R150. -/
abbrev canPrimeErr (s : State) : Prop :=
  s.sch.ph = .prime ∧ s.sch.rsp.valid = true ∧ s.sch.rsp.op = .read ∧ s.sch.rsp.err = true

/-- R151. -/
abbrev canPrimeEmpty (s : State) : Prop := s.readOk .prime ∧ s.sch.rsp.bytes = 0#32

/-- R152. -/
abbrev canPrimeShort (s : State) : Prop := s.readOk .prime ∧ 1#32 ≤ s.sch.rsp.bytes ∧ s.sch.rsp.bytes ≤ 3#32

/-- R153. -/
abbrev canPrimeIssue (s : State) : Prop := s.readOk .prime ∧ 4#32 ≤ s.sch.rsp.bytes

/-- R160. -/
abbrev canFillReq (s : State) : Prop :=
  s.sch.ph = .issued ∧ (s.sch.st = .primed ∨ s.sch.st = .streaming) ∧ s.sch.req.valid = false ∧ s.sch.rsp.valid = false

/-- R161. -/
abbrev canFillErr (s : State) : Prop :=
  s.sch.ph = .fill ∧ s.sch.rsp.valid = true ∧ s.sch.rsp.op = .read ∧ s.sch.rsp.err = true

/-- R162. -/
abbrev canFillEos (s : State) : Prop := s.readOk .fill ∧ s.sch.rsp.bytes = 0#32

/-- R163. -/
abbrev canFillShort (s : State) : Prop := s.readOk .fill ∧ 1#32 ≤ s.sch.rsp.bytes ∧ s.sch.rsp.bytes ≤ 3#32

/-- R164. -/
abbrev canFillOk (s : State) : Prop := s.readOk .fill ∧ 4#32 ≤ s.sch.rsp.bytes

/-- R165. -/
abbrev canWaitIssue (s : State) : Prop := s.sch.ph = .wait ∧ s.dma.done = true ∧ s.dma.busy = false

/-- R180. -/
abbrev canCloseDone (s : State) : Prop := s.sch.ph = .close ∧ s.sch.rsp.valid = true ∧ s.sch.rsp.op = .close

/-- R133. -/
abbrev canDmaMove (s : State) : Prop := s.dma.busy = true ∧ s.soe.q.length < s.params.queueDepth

/-- R123. -/
abbrev canSoeEmit (s : State) : Prop := 1 ≤ s.soe.q.length

/-- R192 to R194: the source may answer a request of kind `op`. -/
abbrev canRespond (s : State) (op : SrcOp) : Prop :=
  s.sch.req.valid = true ∧ s.sch.req.op = op ∧ s.sch.rsp.valid = false

/-- R12: the action is enabled. In a state that holds a reserved code or pair the scheduler has no enabled action (R22).
Host accesses and `RESET` have no guard (R140, R141, R230). -/
def enabled (i : Instr) (s : State) : Bool :=
  match i with
  | .startOpen => s.sch.sound && decide (canStartOpen s)
  | .openOk _ => s.sch.sound && decide (canOpenOk s)
  | .openFail => s.sch.sound && decide (canOpenFail s)
  | .primeErr => s.sch.sound && decide (canPrimeErr s)
  | .primeEmpty => s.sch.sound && decide (canPrimeEmpty s)
  | .primeShort _ => s.sch.sound && decide (canPrimeShort s)
  | .primeIssue _ => s.sch.sound && decide (canPrimeIssue s)
  | .fillReq _ _ => s.sch.sound && decide (canFillReq s)
  | .fillErr _ => s.sch.sound && decide (canFillErr s)
  | .fillEos _ => s.sch.sound && decide (canFillEos s)
  | .fillShort _ _ => s.sch.sound && decide (canFillShort s)
  | .fillOk _ _ => s.sch.sound && decide (canFillOk s)
  | .waitIssue _ _ => s.sch.sound && decide (canWaitIssue s)
  | .closeDone => s.sch.sound && decide (canCloseDone s)
  | .hostWrite _ _ => true
  | .hostRead _ _ => true
  | .dmaMove _ _ => decide (canDmaMove s)
  | .soeEmit _ => decide (canSoeEmit s)
  | .srcOpenRsp _ _ => decide (canRespond s .opn)
  | .srcReadRsp _ _ _ => decide (canRespond s .read)
  | .srcCloseRsp => decide (canRespond s .close)
  | .reset => true

/-- R3, R90: the agent whose step an action is; `none` for `RESET`, which is the system's. -/
def agentOf : Instr → Option Agent
  | .startOpen | .openOk _ | .openFail | .primeErr | .primeEmpty | .primeShort _ | .primeIssue _ | .fillReq _ _
  | .fillErr _ | .fillEos _ | .fillShort _ _ | .fillOk _ _ | .waitIssue _ _ | .closeDone => some .sch
  | .hostWrite _ _ | .hostRead _ _ => some .host
  | .dmaMove _ _ => some .dma
  | .soeEmit _ => some .soe
  | .srcOpenRsp _ _ | .srcReadRsp _ _ _ | .srcCloseRsp => some .src
  | .reset => none

/-- R3: the actions of the agent SCH. -/
def isSchedulerAction (i : Instr) : Bool :=
  match agentOf i with
  | some .sch => true
  | some .dma | some .soe | some .src | some .host | none => false

/-- R183, R219: what the host and the system may do in every state. -/
def isHostAction (i : Instr) : Bool :=
  match agentOf i with
  | some .host | none => true
  | some .sch | some .dma | some .soe | some .src => false

end Sys2Proof.Machine
end

