-- ==== Sys2Proof/Machine/Engine.lean ====
section
/-! DEFINITION. The transfer engine's action: `DMA_MOVE` (41_transfer_engine.md R133). -/

namespace Sys2Proof.Machine

/-- R133: the channel and the queue after the word `w` has been read and pushed, giving the queue `q`. -/
def State.moved (s : State) (w : Word) (q : List Word) : State :=
  { s with
    soe := { s.soe with q := q }
    dma :=
      { s.dma with
        readAddr := s.dma.readAddr + 4#32
        count := s.dma.count - 1#32
        busy := if s.dma.count - 1#32 = 0#32 then false else s.dma.busy
        done := if s.dma.count - 1#32 = 0#32 then true else s.dma.done }
    trace := s.trace ++ [encode (.dmaMove s.dma.buf w)] }

/-- R133: read a word of the in-flight buffer, push it, advance; the last word sets `DONE`. -/
def execDmaMove (s : State) : Answer :=
  attempt s (canDmaMove s)
    (match memRead s.params.toParams s.bufmem s.dma.readAddr with
    | .error f => .error f
    | .ok w =>
      match queuePush s.params.toParams s.soe.q w with
      | .error f => .error f
      | .ok q => .ok (s.moved w q))

end Sys2Proof.Machine
end

