-- ==== Sys2Proof/Machine/Fill.lean ====
section
/-! DEFINITION. The step of streaming: `FILL_REQ`, `FILL_ERR`, `FILL_EOS`, `FILL_SHORT`, `FILL_OK`, `WAIT_ISSUE`
(44_step.md R160 to R165). -/

namespace Sys2Proof.Machine

/-- R160: request the read of a full buffer into the fillable buffer, go to `(STREAMING, FILL)`. -/
def execFillReq (s : State) : Answer :=
  schStep s (canFillReq s)
    ((srcRequest .read s.fillable s.params.bufferSize s).map fun t =>
      (t.goto .streaming .fill).emit (.fillReq s.fillable s.params.bufferSize))

/-- R161: cause `SOURCE_READ_ERROR`, request `close`, go to `(HALTED, CLOSE)`; the channel is not touched. -/
def execFillErr (s : State) : Answer :=
  schStep s (canFillErr s) (endAndClose .sourceReadError .readErr .halted (.fillErr s.fillable) s)

/-- R162: cause `END_OF_SOURCE`, request `close`, go to `(DONE, CLOSE)`; the channel is not touched. -/
def execFillEos (s : State) : Answer :=
  schStep s (canFillEos s) (endAndClose .endOfSource .eos .done (.fillEos s.fillable) s)

/-- R163: the 1 to 3 bytes are dropped; read the same buffer again. -/
def execFillShort (s : State) : Answer :=
  schStep s (canFillShort s)
    ((srcRequest .read s.fillable s.params.bufferSize (s.consume.setLastBytes s.sch.rsp.bytes)).map fun t =>
      (t.goto .streaming .fill).emit (.fillShort s.fillable s.sch.rsp.bytes))

/-- R164: hold the filled buffer, `PEND_WORDS <- floor(b/4)`, go to `(STREAMING, WAIT)`. -/
def execFillOk (s : State) : Answer :=
  schStep s (canFillOk s)
    (.ok
      ((({ s with
            sch :=
              { s.consume.sch with
                lastBytes := s.sch.rsp.bytes, pendWords := wordCount s.sch.rsp.bytes } } : State).goto
          .streaming .wait).emit (.fillOk s.fillable s.sch.rsp.bytes)))

/-- R165: the drained buffer returns to the scheduler, the filled one is issued, `ACTIVE` flips, one step. -/
def execWaitIssue (s : State) : Answer :=
  schStep s (canWaitIssue s)
    ((issue s.fillable s.sch.pendWords { s with sch := s.sch.setOwn s.sch.active false }).map fun t =>
      (({ t with sch := { t.sch with active := s.fillable, pendWords := 0#32 } } : State).goto
        .streaming .issued).emit (.waitIssue s.fillable s.sch.pendWords))

end Sys2Proof.Machine
end

