-- ==== Sys2Proof/Machine/HostPort.lean ====
section
/-! DEFINITION. The host's actions: `HOST_WRITE` and `HOST_READ` (42_session_open.md R140, R141) with the access rules of
30_encoding.md R89. -/

namespace Sys2Proof.Machine

/-- R140: what a write of `v` to the register at `ofs` does: the start command in `(IDLE, READY)`, otherwise nothing. -/
def State.hostStore (s : State) (ofs : BitVec 8) (v : Word) : State :=
  if ofs = 0x00#8 ∧ v.getLsbD 0 = true ∧ s.sch.st = .idle ∧ s.sch.ph = .ready then
    { s with sch := { s.sch with startPend := true } }
  else s

/-- R89: a 32-bit access at `ofs`: not the block's outside the window, refused where it is not 4-aligned, and `t`
otherwise (notes/assumptions/12.md). -/
def hostAccessed (s : State) (ofs : BitVec 8) (t : State) : Answer :=
  if offsetInside ofs = false then .next s
  else if offsetAligned ofs = false then .next s.refuse
  else .next t

/-- R140. -/
def execHostWrite (ofs : BitVec 8) (value : Word) (s : State) : Answer :=
  hostAccessed s ofs ((s.hostStore ofs value).emit (.hostWrite ofs value))

/-- R141: the value returned is the record's `ARG`; nothing else changes. -/
def execHostRead (ofs : BitVec 8) (s : State) : Answer :=
  hostAccessed s ofs (s.emit (.hostRead ofs (s.hostRegister ofs)))

end Sys2Proof.Machine
end

