-- ==== Sys2Proof/Machine/Output.lean ====
section
/-! DEFINITION. The Serial Output Engine's action: `SOE_EMIT` (40_serial_output_engine.md R123). -/

namespace Sys2Proof.Machine

/-- R123: the state after the word `w` has left the queue, whose rest is `q`, and its bits have left the line. -/
def State.emitted (s : State) (w : Word) (q : List Word) : State :=
  { s with
    soe :=
      { q := q
        line := .level ((shiftBits s.params.shiftOrder w).getLastD false)
        out := s.soe.out ++ shiftBits s.params.shiftOrder w }
    trace := s.trace ++ [encode (.soeEmit w)] }

/-- R123: emit the head of the queue; with an empty queue the engine stalls (R122). -/
def execSoeEmit (s : State) : Answer :=
  match queuePop s.soe.q with
  | none => .next s
  | some (w, q) => .next (s.emitted w q)

end Sys2Proof.Machine
end

