-- ==== Sys2Proof/Machine/Prime.lean ====
section
/-! DEFINITION. Prime: `PRIME_ERR`, `PRIME_EMPTY`, `PRIME_SHORT`, `PRIME_ISSUE` (43_prime.md R150 to R153). -/

namespace Sys2Proof.Machine

/-- R150: cause `SOURCE_READ_ERROR`, request `close`, go to `(HALTED, CLOSE)`. -/
def execPrimeErr (s : State) : Answer :=
  schStep s (canPrimeErr s) (endAndClose .sourceReadError .readErr .halted .primeErr s)

/-- R151: cause `EMPTY_SOURCE`, request `close`, go to `(HALTED, CLOSE)`. -/
def execPrimeEmpty (s : State) : Answer :=
  schStep s (canPrimeEmpty s) (endAndClose .emptySource .empty .halted .primeEmpty s)

/-- R152: the 1 to 3 bytes are dropped; read buffer A again. -/
def execPrimeShort (s : State) : Answer :=
  schStep s (canPrimeShort s)
    ((srcRequest .read .a s.params.bufferSize (s.consume.setLastBytes s.sch.rsp.bytes)).map fun t =>
      (t.goto .idle .prime).emit (.primeShort s.sch.rsp.bytes))

/-- R153: issue the first transfer, `floor(b/4)` words of buffer A, go to `(PRIMED, ISSUED)`. -/
def execPrimeIssue (s : State) : Answer :=
  schStep s (canPrimeIssue s)
    ((issue .a (wordCount s.sch.rsp.bytes) (s.consume.setLastBytes s.sch.rsp.bytes)).map fun t =>
      (({ t with sch := { t.sch with active := .a } } : State).goto .primed .issued).emit
        (.primeIssue (wordCount s.sch.rsp.bytes)))

end Sys2Proof.Machine
end

