-- ==== Sys2Proof/Machine/Reset.lean ====
section
/-! DEFINITION. The system-wide reset: `RESET` (70_reset_and_hazards.md R230). -/

namespace Sys2Proof.Machine

/-- R230: every piece of state takes its value of R47, then the reset is traced. The configuration and the environment's
schedule and data are no state of R47 and stay (notes/assumptions/21.md). -/
def execReset (s : State) : Answer := .next ((State.cleared s.params s.env).emit .reset)

end Sys2Proof.Machine
end

