-- ==== Sys2Proof/Machine/Session.lean ====
section
/-! DEFINITION. Opening the source: `START_OPEN`, `OPEN_OK`, `OPEN_FAIL` (42_session_open.md R142 to R144). -/

namespace Sys2Proof.Machine

/-- R142: clear `START_PEND`, request `open`, go to `(IDLE, OPEN)`. -/
def execStartOpen (s : State) : Answer :=
  schStep s (canStartOpen s)
    ((srcRequest .opn .a 0#32 { s with sch := { s.sch with startPend := false } }).map fun t =>
      (t.goto .idle .opn).emit .startOpen)

/-- R143: keep the handle, request the prime read of a full buffer into buffer A, go to `(IDLE, PRIME)`. -/
def execOpenOk (s : State) : Answer :=
  schStep s (canOpenOk s)
    ((srcRequest .read .a s.params.bufferSize
        { s with sch := { s.consume.sch with handle := s.sch.rsp.handle, hvalid := true } }).map fun t =>
      (t.goto .idle .prime).emit (.openOk s.params.bufferSize))

/-- R144: cause `SOURCE_OPEN_ERROR`, no close, go to `(HALTED, STOP)`. `LAST_BYTES <- 0` is R200's and R201's, which R144's
pseudocode does not write out (DEDUCED, notes/assumptions/23.md). -/
def execOpenFail (s : State) : Answer :=
  schStep s (canOpenFail s)
    (.ok (((s.endSession .sourceOpenError .openFail).goto .halted .stop).emit .openFail))

end Sys2Proof.Machine
end

