-- ==== Sys2Proof/Machine/Source.lean ====
section
/-! DEFINITION. The Block Source's answers: `SRC_OPEN_RSP`, `SRC_READ_RSP`, `SRC_CLOSE_RSP` (46_block_source.md R192 to
R194). -/

namespace Sys2Proof.Machine

/-- R192: answer `open` with the draw (`err`, `handle`); the handle of an error is dropped. -/
def execSrcOpenRsp (err : Bool) (handle : Word) (s : State) : Answer :=
  attempt s (canRespond s .opn)
    (.ok
      ((s.respond .opn err 0#32 (if err = true then 0#32 else handle)).emit
        (.srcOpenRsp err (if err = true then 0#32 else handle))))

/-- R193, R209: the checks and the effect of a read answer of `bytes` bytes. -/
def readAnswer (err : Bool) (bytes : Word) (s : State) : Except Fault State :=
  if s.sch.req.len < bytes then .error .srcContract
  else if err = true ∧ bytes ≠ 0#32 then .error .srcContract
  else if s.sch.own s.sch.req.buf = true then .error .ownership
  else
    (memWriteAll s.params.toParams s.bufmem (bufBase s.params.toParams s.sch.req.buf).toNat
        (s.env.bytes bytes.toNat)).map fun m =>
      (({ s with bufmem := m, env := s.env.afterBytes bytes.toNat } : State).respond .read err bytes 0#32).emit
        (.srcReadRsp s.sch.req.buf err bytes)

/-- R193: answer `read` with the draw (`err`, `bytes`) and the source's next `bytes` data bytes, written into the requested
buffer. -/
def execSrcReadRsp (err : Bool) (bytes : Word) (s : State) : Answer :=
  attempt s (canRespond s .read) (readAnswer err bytes s)

/-- R194: acknowledge `close`. -/
def execSrcCloseRsp (s : State) : Answer :=
  attempt s (canRespond s .close) (.ok ((s.respond .close false 0#32 0#32).emit .srcCloseRsp))

end Sys2Proof.Machine
end

