-- ==== Sys2Proof/Machine/Termination.lean ====
section
/-! DEFINITION. Release of the source handle: `CLOSE_DONE` (45_termination.md R180). The phase `STOP` has no action
(R181). -/

namespace Sys2Proof.Machine

/-- R180: consume the acknowledgement, clear `HVALID`, go to `(ST, STOP)`. -/
def execCloseDone (s : State) : Answer :=
  schStep s (canCloseDone s)
    (.ok
      ((({ s with sch := { s.consume.sch with hvalid := false } } : State).goto s.sch.st .stop).emit .closeDone))

end Sys2Proof.Machine
end

