-- ==== Sys2Proof/Machine/Dispatch.lean ====
section
/-! DEFINITION. One arm per action. The arguments an arm leaves out are result fields of the record, which the action's
rule computes from the state (notes/assumptions/3.md). -/

namespace Sys2Proof.Machine

def exec (i : Instr) (s : State) : Host.Outcome State Fault Refusal :=
  match i with
  | .startOpen => Sys2Proof.Machine.execStartOpen s
  | .openOk _ => Sys2Proof.Machine.execOpenOk s
  | .openFail => Sys2Proof.Machine.execOpenFail s
  | .primeErr => Sys2Proof.Machine.execPrimeErr s
  | .primeEmpty => Sys2Proof.Machine.execPrimeEmpty s
  | .primeShort _ => Sys2Proof.Machine.execPrimeShort s
  | .primeIssue _ => Sys2Proof.Machine.execPrimeIssue s
  | .fillReq _ _ => Sys2Proof.Machine.execFillReq s
  | .fillErr _ => Sys2Proof.Machine.execFillErr s
  | .fillEos _ => Sys2Proof.Machine.execFillEos s
  | .fillShort _ _ => Sys2Proof.Machine.execFillShort s
  | .fillOk _ _ => Sys2Proof.Machine.execFillOk s
  | .waitIssue _ _ => Sys2Proof.Machine.execWaitIssue s
  | .closeDone => Sys2Proof.Machine.execCloseDone s
  | .hostWrite ofs value => Sys2Proof.Machine.execHostWrite ofs value s
  | .hostRead ofs _ => Sys2Proof.Machine.execHostRead ofs s
  | .dmaMove _ _ => Sys2Proof.Machine.execDmaMove s
  | .soeEmit _ => Sys2Proof.Machine.execSoeEmit s
  | .srcOpenRsp err handle => Sys2Proof.Machine.execSrcOpenRsp err handle s
  | .srcReadRsp _ err bytes => Sys2Proof.Machine.execSrcReadRsp err bytes s
  | .srcCloseRsp => Sys2Proof.Machine.execSrcCloseRsp s
  | .reset => Sys2Proof.Machine.execReset s

end Sys2Proof.Machine
end

