-- ==== Sys2Proof/Machine/Turns.lean ====
section
/-! DEFINITION. What a turn of the schedule does: an action given by its record, a raw host access (30_encoding.md R89), a
raw response of the source (R105, R106). -/

namespace Sys2Proof.Machine

/-- A turn that is a record: the action it decodes to; an INVALID record is a refused input
(93_implementation_defined.md section 2, notes/assumptions/11.md). -/
def takeRecord (r : Record) (s : State) : Answer :=
  match decode r with
  | some i => exec i s
  | none => .next s.refuse

/-- R89: a raw host access. In the window an aligned 32-bit access is `HOST_WRITE` or `HOST_READ` at its offset and any
other is refused; outside the window it is not the block's. DESIGN CHOICE (notes/assumptions/25.md): the lowest address alone
decides, so that an access that starts below the window and runs into it is not the block's. -/
def takeHostAccess (acc : HostAccess) (s : State) : Answer :=
  if inWindow s.params.toParams acc.addr = false then .next s
  else if acc.width ≠ 32 then .next s.refuse
  else
    match acc.write with
    | some v => exec (.hostWrite (windowOffset s.params.toParams acc.addr) v) s
    | none => exec (.hostRead (windowOffset s.params.toParams acc.addr) 0#32) s

/-- R105, R106: a raw response. `OP = 3` raises `SRC_CONTRACT` where some request waits for its answer; otherwise it is the
answer of the kind its `OP` names. DESIGN CHOICE (notes/assumptions/14.md): fields that R106 fixes at 0 for that kind
(`BYTES` of an OPEN, `HANDLE` of a READ, all of a CLOSE) and the reserved bits are ignored, whatever they hold. -/
def takeResponse (w0 w1 w2 : Word) (s : State) : Answer :=
  match srspOp w0 with
  | .opn => exec (.srcOpenRsp (srspErr w0) w2) s
  | .read => exec (.srcReadRsp s.sch.req.buf (srspErr w0) w1) s
  | .close => exec .srcCloseRsp s
  | .reserved => attempt s (s.sch.req.valid = true ∧ s.sch.rsp.valid = false) (.error .srcContract)

/-- One turn. -/
def takeTurn (t : Turn) (s : State) : Answer :=
  match t with
  | .action r => takeRecord r s
  | .hostAccess acc => takeHostAccess acc s
  | .response w0 w1 w2 => takeResponse w0 w1 w2 s

end Sys2Proof.Machine
end

