-- ==== Sys2Proof/Machine/Step.lean ====
section
/-! DEFINITION. One step of the machine: take the next turn of the schedule off it and do it (00_scope.md R12). -/

namespace Sys2Proof.Machine

/-- R12: at each step one agent is offered its turn; the whole effect is atomic. -/
def step (s : State) : Host.Outcome State Fault Refusal := takeTurn s.nextTurn s.afterTurn

/-- `s` with the record of a row of spec/opcode_table.json placed as the next turn. -/
def State.withFetchWord (s : State) (nbits w : Nat) : State := s.placeRecord (tableRecord nbits w)

end Sys2Proof.Machine
end

