-- ==== Sys2Proof/Safety.lean ====
section
/-! DEFINITION. What counts as a safe run, in the terms claims use: terminal, quiescent, final and stuck states
(45_termination.md R183), and the invariant of the states that runs reach (10_state.md R26, 44_step.md R168 to R172, 20_memory.md R82,
60_exceptions.md R207, 70_reset_and_hazards.md R254). -/

namespace Sys2Proof.Machine

/-- R183: no agent but the host and the platform has an enabled action. -/
def State.quiescent (s : State) : Prop := ∀ i : Instr, isHostAction i = false → enabled i s = false

/-- R183: the end of a run. -/
abbrev State.final (s : State) : Prop :=
  s.sch.ph = .stop ∧ s.sch.req.valid = false ∧ s.sch.rsp.valid = false ∧ s.dma.busy = false ∧ s.soe.q.length = 0 ∧
    s.faults = 0#10 ∧ s.refused = false

/-- R183: quiescent but not final. -/
def State.stuck (s : State) : Prop := s.quiescent ∧ ¬s.final

/-- R171: a transfer has been issued in this reset period. -/
abbrev State.inFlightOwner (s : State) : Prop :=
  s.sch.own s.sch.active = true ∧ s.sch.own s.fillable = false

/-- R171: no transfer has been issued yet, and the channel is as reset left it. -/
abbrev State.neverIssued (s : State) : Prop :=
  s.sch.ownA = false ∧ s.sch.ownB = false ∧ s.sch.active = .a ∧ s.sch.xferCount = 0#32 ∧ s.dma.busy = false ∧
    s.dma.done = false

/-- R168, R169, R171: a transfer has been issued: its buffer is the active one and owned, the channel is either moving it
or done with it, and buffer A goes with odd transfers. -/
abbrev State.issuedOnce (s : State) : Prop :=
  s.inFlightOwner ∧ s.dma.buf = s.sch.active ∧ s.dma.done = !s.dma.busy ∧
    s.sch.xferCount.getLsbD 0 = !s.sch.active.toBit

/-- The `n` bytes from `a` on are written. -/
abbrev Memory.filled (m : Memory) (a n : Nat) : Prop := ∀ k < n, (m.read (a + k)).isSome = true

/-- R82, R133: a channel that is busy has words left, and they lie aligned and written in its buffer. -/
abbrev State.transferSound (s : State) : Prop :=
  s.dma.busy = true →
    1 ≤ s.dma.count.toNat ∧ s.dma.readAddr.toNat % 4 = 0 ∧
      (bufBase s.params.toParams s.dma.buf).toNat ≤ s.dma.readAddr.toNat ∧
      s.dma.readAddr.toNat + 4 * s.dma.count.toNat ≤
        (bufBase s.params.toParams s.dma.buf).toNat + s.params.bufferSize.toNat ∧
      s.bufmem.filled s.dma.readAddr.toNat (4 * s.dma.count.toNat)

/-- R35, R36: exactly one of request and response is outstanding, of kind `op` into buffer `f`. -/
abbrev State.awaiting (s : State) (op : SrcOp) (f : Buf) : Prop :=
  (s.sch.req.valid = true ∧ s.sch.rsp.valid = false ∧ s.sch.req.op = op ∧ s.sch.req.buf = f ∧
      (op = .read → s.sch.req.len = s.params.bufferSize)) ∨
    (s.sch.req.valid = false ∧ s.sch.rsp.valid = true ∧ s.sch.rsp.op = op ∧
      (op = .read →
        s.sch.rsp.bytes.toNat ≤ s.params.bufferSize.toNat ∧ (s.sch.rsp.err = true → s.sch.rsp.bytes = 0#32) ∧
          s.bufmem.filled (bufBase s.params.toParams f).toNat s.sch.rsp.bytes.toNat))

/-- R78: neither request nor response is outstanding. -/
abbrev State.idleSource (s : State) : Prop := s.sch.req.valid = false ∧ s.sch.rsp.valid = false

/-- What each phase expects of the source (R142 to R180). -/
abbrev State.sourcePhase (s : State) : Prop :=
  ((s.sch.ph = .ready ∨ s.sch.ph = .issued ∨ s.sch.ph = .wait ∨ s.sch.ph = .stop) → s.idleSource) ∧
    (s.sch.ph = .opn → s.awaiting .opn .a) ∧ (s.sch.ph = .prime → s.awaiting .read .a) ∧
    (s.sch.ph = .fill → s.awaiting .read s.fillable) ∧ (s.sch.ph = .close → s.awaiting .close .a)

/-- R28, R254: in `WAIT` the fillable buffer holds the next transfer's words; elsewhere no word is pending. -/
abbrev State.pending (s : State) : Prop :=
  if s.sch.ph = .wait then
    1 ≤ s.sch.pendWords.toNat ∧ 4 * s.sch.pendWords.toNat ≤ s.params.bufferSize.toNat ∧
      s.bufmem.filled (bufBase s.params.toParams s.fillable).toNat (4 * s.sch.pendWords.toNat)
  else s.sch.pendWords = 0#32

/-- R185, R200: the cause, the message, the console and the transfers issued go together, and with the control state. -/
abbrev State.outcome (s : State) : Prop :=
  (s.sch.st.terminal = false → s.sch.cause = .none ∧ s.sch.msg = .none ∧ s.console = []) ∧
    (s.sch.st = .done → s.sch.cause = .endOfSource ∧ s.sch.msg = .eos ∧ s.console = [.eos]) ∧
    (s.sch.st = .halted →
      (s.sch.cause = .sourceOpenError ∧ s.sch.msg = .openFail ∧ s.console = [.openFail] ∧ s.sch.ph = .stop ∧
          s.neverIssued) ∨
        (s.sch.cause = .emptySource ∧ s.sch.msg = .empty ∧ s.console = [.empty] ∧ s.neverIssued) ∨
        (s.sch.cause = .sourceReadError ∧ s.sch.msg = .readErr ∧ s.console = [.readErr]))

/-- R171: whether a transfer has been issued follows from the control state, except in `HALTED`. -/
abbrev State.ownership (s : State) : Prop :=
  (s.sch.st = .idle → s.neverIssued) ∧
    ((s.sch.st = .primed ∨ s.sch.st = .streaming ∨ s.sch.st = .done) → s.issuedOnce) ∧
    (s.sch.st = .halted → s.neverIssued ∨ s.issuedOnce)

/-- R25, R140: a pending start only in `(IDLE, READY)`. -/
abbrev State.startSound (s : State) : Prop := s.sch.startPend = true → s.sch.st = .idle ∧ s.sch.ph = .ready

/-- R26, R143, R180: the handle is valid from `OPEN_OK` to `CLOSE_DONE`, and in no other phase. -/
abbrev State.handleSound (s : State) : Prop :=
  ((s.sch.ph = .ready ∨ s.sch.ph = .opn ∨ s.sch.ph = .stop) → s.sch.hvalid = false) ∧
    ((s.sch.ph = .prime ∨ s.sch.ph = .issued ∨ s.sch.ph = .fill ∨ s.sch.ph = .wait ∨ s.sch.ph = .close) →
      s.sch.hvalid = true)

/-- R33, R200: no byte count before the first read of a session is answered, and `LAST_BYTES = 0` with every cause. -/
abbrev State.lastBytesSound (s : State) : Prop :=
  ((s.sch.ph = .ready ∨ s.sch.ph = .opn) → s.sch.lastBytes = 0#32) ∧
    (s.sch.st.terminal = true → s.sch.lastBytes = 0#32)

/-- R42, R61: the memory is canonical and lists only bytes of the two buffer regions. -/
abbrev State.memorySound (s : State) : Prop :=
  s.bufmem.wf ∧ ∀ c ∈ s.bufmem, inBuffer s.params.toParams c.1 1 = true

/-- R207: no fault but `SRC_CONTRACT` is recorded. -/
abbrev State.faultSound (s : State) : Prop := s.faults &&& ~~~Fault.srcContract.mask = 0#10

/-- The invariant of the reachable states. -/
structure State.Inv (s : State) : Prop where
  control : s.sch.sound = true
  ownership : s.ownership
  transfer : s.transferSound
  source : s.sourcePhase
  pending : s.pending
  outcome : s.outcome
  start : s.startSound
  handle : s.handleSound
  lastBytes : s.lastBytesSound
  memory : s.memorySound
  queue : s.soe.q.length ≤ s.params.queueDepth
  faults : s.faultSound

/-- The words of the `DMA_MOVE` records of a trace, in order (R93). -/
def wordsMoved (trace : List Record) : List Word :=
  trace.filterMap fun r =>
    match decode r with
    | some (.dmaMove _ w) => some w
    | _ => none

/-- The words of the `SOE_EMIT` records of a trace, in order (R93). -/
def wordsEmitted (trace : List Record) : List Word :=
  trace.filterMap fun r =>
    match decode r with
    | some (.soeEmit w) => some w
    | _ => none

/-- R77, R134: what was moved is what was emitted, in order, followed by what is still in the queue; and the line has
carried the bits of the words emitted, in order. -/
abbrev State.fifo (s : State) : Prop :=
  wordsMoved s.trace = wordsEmitted s.trace ++ s.soe.q ∧
    s.soe.out = (wordsEmitted s.trace).flatMap (shiftBits s.params.shiftOrder)

/-- R96: every record of the trace decodes. -/
abbrev State.traceValid (s : State) : Prop := ∀ r ∈ s.trace, (decode r).isSome = true

end Sys2Proof.Machine
end

