-- ==== Sys2Proof/Certificates/Slice0/Obligations.lean ====
section
/-! DEFINITION. The statements about the machine, for the provers. Each docstring names the rules of spec/ it formalises,
or, for a clause that rests on a choice of the model, the log entry of that choice. -/

open Sys2Proof Sys2Proof.Machine

/-! ### Records -/

/-- R92, R93, R94, R110: no field of an action's record is dropped (that `OPEN_OK` and `FILL_REQ` are well-formed with any
`ARG` is the model's choice, notes/assumptions/10.md). -/
def Obligations.DecodingAnEncodedActionGivesItBack : Prop :=
  ∀ i : Instr, i.wellFormed = true → decode (encode i) = some i

/-- R92, R110: a record that decodes is the record of the action it decodes to, which is well-formed (which `ARG` a record may
have is in part the model's choice, notes/assumptions/10.md). -/
def Obligations.EncodingADecodedRecordGivesItBack : Prop :=
  ∀ (r : Record) (i : Instr), decode r = some i → i.wellFormed = true ∧ encode i = r

/-- R92: where the fields of a record stand, and that its reserved bits are 0. -/
def Obligations.RecordFieldsStandInTheirBits : Prop :=
  ∀ i : Instr,
    (encode i).extractLsb' 0 8 = actCode i ∧ (encode i).getLsbD 8 = bufBit i ∧ (encode i).getLsbD 9 = errBit i ∧
      (encode i).extractLsb' 10 6 = 0#6 ∧ (encode i).extractLsb' 16 8 = ofsField i ∧
      (encode i).extractLsb' 24 8 = 0#8 ∧ (encode i).extractLsb' 32 32 = argField i

/-- R90, R94, R96: the records that decode as INVALID because of their code, a reserved field, `BUF`, `ERR` or `OFS`. -/
def Obligations.ReservedRecordsAreInvalid : Prop :=
  ∀ r : Record,
    (r.extractLsb' 0 8 ∉
          [0x01#8, 0x02#8, 0x03#8, 0x10#8, 0x11#8, 0x12#8, 0x13#8, 0x20#8, 0x21#8, 0x22#8, 0x23#8, 0x24#8, 0x25#8,
            0x30#8, 0x40#8, 0x41#8, 0x50#8, 0x60#8, 0x70#8, 0x71#8, 0x72#8, 0xF0#8] ∨
        r.extractLsb' 10 6 ≠ 0#6 ∨ r.extractLsb' 24 8 ≠ 0#8 ∨
        (r.getLsbD 8 = true ∧
          r.extractLsb' 0 8 ∉ [0x20#8, 0x21#8, 0x22#8, 0x23#8, 0x24#8, 0x25#8, 0x50#8, 0x71#8]) ∨
        (r.getLsbD 9 = true ∧ r.extractLsb' 0 8 ∉ [0x03#8, 0x10#8, 0x21#8, 0x70#8, 0x71#8]) ∨
        (r.extractLsb' 16 8 ≠ 0#8 ∧ r.extractLsb' 0 8 ∉ [0x40#8, 0x41#8])) →
      decode r = none

/-- Records of 95_test_vectors.md section 2.1 and what they decode as; and R90's column `agent`: whose step each action is,
by its code, with the scheduler's actions and those of the host and the system (R183) that the statements below name. -/
def Obligations.SampleRecordsDecode : Prop :=
  decode 0x0000000100000040#64 = some (.hostWrite 0x00#8 1#32) ∧
    decode 0x000104BB00040041#64 = some (.hostRead 0x04#8 0x000104BB#32) ∧
    decode 0x0000001000000120#64 = some (.fillReq .b 16#32) ∧
    decode 0x0000000000000371#64 = some (.srcReadRsp .b true 0#32) ∧
    decode 0x1312111000000150#64 = some (.dmaMove .b 0x13121110#32) ∧
    decode 0x00000000000000F0#64 = some .reset ∧ decode 0x0000000000000111#64 = none ∧
    ∀ i : Instr,
      (agentOf i =
        if actCode i < 0x40#8 then some .sch
        else if actCode i < 0x50#8 then some .host
        else if actCode i < 0x60#8 then some .dma
        else if actCode i < 0x70#8 then some .soe
        else if actCode i < 0x80#8 then some .src
        else none) ∧
      (isSchedulerAction i = true ↔ agentOf i = some .sch) ∧
      (isHostAction i = true ↔ agentOf i = some .host ∨ agentOf i = none)

/-! ### One step -/

/-- R12, R90: a step runs the action the next record of the schedule decodes to, in the state with that turn taken off; a raw
host access (R89) or raw response (R105, R106) that is next is done in that state too (the statements about them say how).
Past the end of the schedule the turn is the free value (the model's choice, notes/assumptions/1.md). -/
def Obligations.StepRunsTheDecodedAction : Prop :=
  (∀ (s : State) (r : Record) (rest : List Turn) (i : Instr),
      s.env.program = .action r :: rest → decode r = some i →
        step s = exec i { s with env := { s.env with program := rest } }) ∧
    (∀ (s : State) (acc : HostAccess) (rest : List Turn), s.env.program = .hostAccess acc :: rest →
      step s = takeHostAccess acc { s with env := { s.env with program := rest } }) ∧
    (∀ (s : State) (w0 w1 w2 : Word) (rest : List Turn), s.env.program = .response w0 w1 w2 :: rest →
      step s = takeResponse w0 w1 w2 { s with env := { s.env with program := rest } }) ∧
    (∀ s : State, s.env.program = [] →
      step s = takeTurn (Config.freeTurn s.env.turns) { s with env := { s.env with turns := s.env.turns + 1 } }) ∧
    (∀ (s : State) (nbits w : Nat), (s.withFetchWord nbits w).nextTurn = .action (tableRecord nbits w) ∧
      (s.withFetchWord nbits w).afterTurn = s)

/-- R96, R49 and the treatment `refuse` of 93_implementation_defined.md (DEDUCED, notes/assumptions/11.md): a record that
decodes as INVALID is refused, with no other effect. -/
def Obligations.InvalidRecordIsRefused : Prop :=
  ∀ (s : State) (r : Record) (rest : List Turn), s.env.program = .action r :: rest → decode r = none →
    step s = .next { s with env := { s.env with program := rest }, refused := true }

/-- R89, R49: a host access in the window that is not an aligned 32-bit one is refused, with no other effect and no record;
an aligned 32-bit one is the host action at its offset; outside the window it is not the block's. That every number of bits
is a width, and that the lowest address alone decides, is the model's choice (notes/assumptions/24.md, 25.md). -/
def Obligations.HostAccessesAreSortedByTheirAddressAndWidth : Prop :=
  ∀ (s : State) (acc : HostAccess),
    let base := s.params.regBase.toNat
    let a := acc.addr.toNat
    (base ≤ a ∧ a < base + 0x20 ∧ (a % 4 ≠ 0 ∨ acc.width ≠ 32) →
        takeHostAccess acc s = .next { s with refused := true }) ∧
      (base ≤ a ∧ a < base + 0x20 ∧ a % 4 = 0 ∧ acc.width = 32 →
        takeHostAccess acc s =
          match acc.write with
          | some v => exec (.hostWrite (BitVec.ofNat 8 (a - base)) v) s
          | none => exec (.hostRead (BitVec.ofNat 8 (a - base)) 0#32) s) ∧
      (a < base ∨ base + 0x20 ≤ a → takeHostAccess acc s = .next s)

/-- R105, R106, R192, R193, R194: a raw response with a legal `OP` is the answer of that kind, and one with `OP = 3` raises
`SRC_CONTRACT` (the form of a raw response, that its bits outside the fields used here are ignored, and that `OP = 3` needs
an outstanding request, are the model's choice, notes/assumptions/14.md). -/
def Obligations.RawResponsesAreTheSourcesAnswers : Prop :=
  ∀ (s : State) (w0 w1 w2 : Word),
    (w0.extractLsb' 0 2 = 0#2 → takeResponse w0 w1 w2 s = exec (.srcOpenRsp (w0.getLsbD 2) w2) s) ∧
      (w0.extractLsb' 0 2 = 1#2 → takeResponse w0 w1 w2 s = exec (.srcReadRsp s.sch.req.buf (w0.getLsbD 2) w1) s) ∧
      (w0.extractLsb' 0 2 = 2#2 → takeResponse w0 w1 w2 s = exec .srcCloseRsp s) ∧
      (w0.extractLsb' 0 2 = 3#2 →
        takeResponse w0 w1 w2 s =
          if s.sch.req.valid = true ∧ s.sch.rsp.valid = false then .next { s with faults := s.faults ||| 0x080#10 }
          else .next s)

/-- The model's choice: no action and no step stops the machine. An action that is not enabled is a next state (DESIGN
CHOICE, notes/assumptions/2.md, where R12 and R181 speak of no step), an INVALID record is a refused input (DEDUCED,
notes/assumptions/11.md), and a fault or a refusal of the spec is recorded in the state (DEDUCED from R208 and R14,
notes/assumptions/15.md). -/
def Obligations.EveryActionAndEveryStepAnswersANextState : Prop :=
  (∀ (i : Instr) (s : State), ∃ t, exec i s = .next t) ∧ ∀ s : State, ∃ t, step s = .next t

/-- R12: where the action's guard does not hold the agent holds (that the turn then passes is the model's choice,
notes/assumptions/2.md). A scheduler action is meant in a state without reserved codes. The guards are the `await` clauses of
R142 to R144, R150 to R153, R160 to R165, R180, R133, R123 and R192 to R194; R140, R141 and R230 have none; and the scheduler
has none that holds in a state with a reserved code or pair (R22). -/
def Obligations.DisabledActionsHold : Prop :=
  (∀ (i : Instr) (s : State), enabled i s = false → (isSchedulerAction i = true → s.sch.sound = true) →
      exec i s = .next s) ∧
    ∀ (i : Instr) (s : State),
      let answered := fun (ph : Ph) (op : SrcOp) (err : Bool) =>
        s.sch.ph = ph ∧ s.sch.rsp.valid = true ∧ s.sch.rsp.op = op ∧ s.sch.rsp.err = err
      let asked := fun (op : SrcOp) => s.sch.req.valid = true ∧ s.sch.req.op = op ∧ s.sch.rsp.valid = false
      let quiet := s.sch.req.valid = false ∧ s.sch.rsp.valid = false
      let b := s.sch.rsp.bytes.toNat
      enabled i s = true ↔
        (isSchedulerAction i = true → s.sch.sound = true) ∧
          match i with
          | .startOpen => s.sch.st = .idle ∧ s.sch.ph = .ready ∧ s.sch.startPend = true ∧ quiet
          | .openOk _ => answered .opn .opn false
          | .openFail => answered .opn .opn true
          | .primeErr => answered .prime .read true
          | .primeEmpty => answered .prime .read false ∧ b = 0
          | .primeShort _ => answered .prime .read false ∧ 1 ≤ b ∧ b ≤ 3
          | .primeIssue _ => answered .prime .read false ∧ 4 ≤ b
          | .fillReq _ _ => s.sch.ph = .issued ∧ (s.sch.st = .primed ∨ s.sch.st = .streaming) ∧ quiet
          | .fillErr _ => answered .fill .read true
          | .fillEos _ => answered .fill .read false ∧ b = 0
          | .fillShort _ _ => answered .fill .read false ∧ 1 ≤ b ∧ b ≤ 3
          | .fillOk _ _ => answered .fill .read false ∧ 4 ≤ b
          | .waitIssue _ _ => s.sch.ph = .wait ∧ s.dma.done = true ∧ s.dma.busy = false
          | .closeDone => s.sch.ph = .close ∧ s.sch.rsp.valid = true ∧ s.sch.rsp.op = .close
          | .dmaMove _ _ => s.dma.busy = true ∧ s.soe.q.length < s.params.queueDepth
          | .soeEmit _ => 1 ≤ s.soe.q.length
          | .srcOpenRsp _ _ => asked .opn
          | .srcReadRsp _ _ _ => asked .read
          | .srcCloseRsp => asked .close
          | .hostWrite _ _ | .hostRead _ _ | .reset => True

/-- R22, R207, R205, R103: in a state that holds a reserved code or a pair outside the eleven, a scheduler step raises
`BAD_STATE` (at which turn is the model's choice, notes/assumptions/16.md) and no scheduler action is enabled; the premise
`sound` of the statements below is exactly the eleven pairs and no reserved code. -/
def Obligations.ReservedControlStateRaisesBadState : Prop :=
  (∀ (i : Instr) (s : State), isSchedulerAction i = true → s.sch.sound = false →
      exec i s = .next { s with faults := s.faults ||| 0x200#10 } ∧ enabled i s = false) ∧
    ∀ c : Sch,
      c.sound = true ↔
        (c.st, c.ph) ∈
            [(.idle, .ready), (.idle, .opn), (.idle, .prime), (.primed, .issued), (.streaming, .fill),
              (.streaming, .wait), (.streaming, .issued), (.done, .close), (.done, .stop), (.halted, .close),
              (.halted, .stop)] ∧
          c.cause ∉ [.reserved5, .reserved6, .reserved7] ∧ c.msg ∉ [.reserved5, .reserved6, .reserved7]

/-- R208: a step that raises a fault sets its bit, by the numbers of R207, and has no other effect; an action that appends
no record, and so one that raises a fault recorded before, changes nothing but the marks; only reset clears a fault bit; a
state with a fault recorded is never final. -/
def Obligations.AFaultingStepHasNoOtherEffect : Prop :=
  (∀ (s : State) (f : Fault),
      settle s (.error f) =
        .next { s with
                faults :=
                  s.faults |||
                    match f with
                    | .ownership => 0x001#10
                    | .dmaBusy => 0x002#10
                    | .zeroLen => 0x004#10
                    | .busRange => 0x008#10
                    | .misaligned => 0x010#10
                    | .unwrittenRead => 0x020#10
                    | .queueOverflow => 0x040#10
                    | .srcContract => 0x080#10
                    | .protocol => 0x100#10
                    | .badState => 0x200#10 }) ∧
    ∀ (i : Instr) (s t : State), i ≠ .reset → exec i s = .next t →
      (t.faults ≠ s.faults → ∃ f : Fault, settle s (.error f) = .next t) ∧
        (t.trace = s.trace → t = { s with faults := t.faults, refused := t.refused }) ∧
        (t.trace ≠ s.trace → t.faults = s.faults) ∧ s.faults &&& t.faults = s.faults ∧ (t.faults ≠ 0#10 → ¬t.final)

/-- R49: `REFUSED` is cleared by reset only, and a state with it is never final. -/
def Obligations.OnlyResetClearsRefused : Prop :=
  ∀ (i : Instr) (s t : State), s.refused = true → exec i s = .next t →
    (i ≠ .reset → t.refused = true ∧ ¬t.final) ∧ (i = .reset → t.refused = false)

/-! ### Primitives -/

/-- R209: the first failing check in pseudocode order decides which fault a primitive raises, with R63's range of a word read;
and R64's byte write, whose only fault is `BUS_RANGE` and which past that check writes its byte and no other. -/
def Obligations.FaultsAreRaisedInTheirPriority : Prop :=
  (∀ (s : State) (i : Buf) (w : Word),
      (s.dma.busy = true → issue i w s = .error .dmaBusy) ∧
        (s.dma.busy = false → w = 0#32 → issue i w s = .error .zeroLen) ∧
        (s.dma.busy = false → w ≠ 0#32 → s.params.bufferSize.toNat / 4 < w.toNat → issue i w s = .error .busRange) ∧
        (s.dma.busy = false → w ≠ 0#32 → w.toNat ≤ s.params.bufferSize.toNat / 4 → s.sch.own i = true →
          issue i w s = .error .ownership)) ∧
    (∀ (p : Params) (m : Memory) (a : Word),
      let size := p.bufferSize.toNat
      let inside :=
        (p.baseA.toNat ≤ a.toNat ∧ a.toNat + 4 ≤ p.baseA.toNat + size) ∨
          (p.baseB.toNat ≤ a.toNat ∧ a.toNat + 4 ≤ p.baseB.toNat + size)
      (a.toNat % 4 ≠ 0 → memRead p m a = .error .misaligned) ∧
        (a.toNat % 4 = 0 → ¬inside → memRead p m a = .error .busRange) ∧
        (a.toNat % 4 = 0 → inside → (∃ k < 4, m.read (a.toNat + k) = none) →
          memRead p m a = .error .unwrittenRead)) ∧
    (∀ (p : Params) (m : Memory) (a : Nat) (v : Byte),
      let size := p.bufferSize.toNat
      let inside :=
        (p.baseA.toNat ≤ a ∧ a < p.baseA.toNat + size) ∨ (p.baseB.toNat ≤ a ∧ a < p.baseB.toNat + size)
      (¬inside → memWrite p m a v = .error .busRange) ∧
        (inside →
          ∃ m', memWrite p m a v = .ok m' ∧ m'.read a = some v ∧ ∀ a', a' ≠ a → m'.read a' = m.read a')) ∧
    (∀ (s : State) (f : Buf) (err : Bool) (b : Word),
      s.sch.req.valid = true → s.sch.req.op = .read → s.sch.rsp.valid = false →
        (s.sch.req.len.toNat < b.toNat →
            exec (.srcReadRsp f err b) s = .next { s with faults := s.faults ||| 0x080#10 }) ∧
          (b.toNat ≤ s.sch.req.len.toNat → err = true → b ≠ 0#32 →
            exec (.srcReadRsp f err b) s = .next { s with faults := s.faults ||| 0x080#10 }) ∧
          (b.toNat ≤ s.sch.req.len.toNat → (err = true → b = 0#32) → s.sch.own s.sch.req.buf = true →
            exec (.srcReadRsp f err b) s = .next { s with faults := s.faults ||| 0x001#10 })) ∧
    (∀ (s : State) (op : SrcOp) (f : Buf) (n : Word),
      (s.sch.req.valid = true ∨ s.sch.rsp.valid = true → srcRequest op f n s = .error .protocol) ∧
        (s.sch.req.valid = false → s.sch.rsp.valid = false → op = .read → s.sch.own f = true →
          srcRequest op f n s = .error .ownership))

/-- R131, R132, R98, R99: what `Issue(i, w)` leaves when its checks pass, and the descriptor it writes. -/
def Obligations.IssueConfiguresAndTriggersTheChannel : Prop :=
  ∀ (s : State) (i : Buf) (w : Word),
    s.dma.busy = false → w ≠ 0#32 → w.toNat ≤ s.params.bufferSize.toNat / 4 → s.sch.own i = false →
      issue i w s =
        .ok { s with
              dma :=
                { readAddr := match i with | .a => s.params.baseA | .b => s.params.baseB
                  writeAddr := s.params.txfAddr, count := w, buf := i, incrRead := true, incrWrite := false
                  dataSize := 2#2, busy := true, done := false }
              sch :=
                { s.sch with
                  ownA := match i with | .a => true | .b => s.sch.ownA
                  ownB := match i with | .a => s.sch.ownB | .b => true
                  xferCount := s.sch.xferCount + 1#32, lastWords := w } } ∧
        descriptor s.params.toParams i w =
          match i with
          | .a => (s.params.baseA, s.params.txfAddr, w, 0x00000013#32)
          | .b => (s.params.baseB, s.params.txfAddr, w, 0x00000033#32)

/-- R63, R65: an aligned word read of written bytes inside a buffer is little-endian. -/
def Obligations.WordReadsAreLittleEndian : Prop :=
  ∀ (p : Params) (m : Memory) (a : Word) (i : Buf) (b0 b1 b2 b3 : Byte), a.toNat % 4 = 0 →
    (bufBase p i).toNat ≤ a.toNat → a.toNat + 4 ≤ (bufBase p i).toNat + p.bufferSize.toNat →
    m.read a.toNat = some b0 → m.read (a.toNat + 1) = some b1 → m.read (a.toNat + 2) = some b2 →
    m.read (a.toNat + 3) = some b3 →
      ∃ w, memRead p m a = .ok w ∧ w.extractLsb' 0 8 = b0 ∧ w.extractLsb' 8 8 = b1 ∧ w.extractLsb' 16 8 = b2 ∧
        w.extractLsb' 24 8 = b3

/-- R121: the queue is first in, first out, with capacity `P_QUEUE_DEPTH`. -/
def Obligations.TheQueueIsFirstInFirstOut : Prop :=
  ∀ (p : Params) (q : List Word) (w : Word),
    (p.queueDepth ≤ q.length → queuePush p q w = .error .queueOverflow) ∧
      (q.length < p.queueDepth → queuePush p q w = .ok (q ++ [w])) ∧ queuePop (w :: q) = some (w, q)

/-- R190, R104, R105: the request `SrcRequest` posts, and its three words. -/
def Obligations.SrcRequestPostsOneRequest : Prop :=
  ∀ (s : State) (op : SrcOp) (f : Buf) (n : Word),
    s.sch.req.valid = false → s.sch.rsp.valid = false → (op = .read → s.sch.own f = false) →
      ∃ r : Req,
        srcRequest op f n s = .ok { s with sch := { s.sch with req := r } } ∧
          r.valid = true ∧ r.op = op ∧ r.buf = f ∧ r.len = n ∧
          (op = .opn → r.handle = 0#32 ∧ r.name = some s.params.sourceName) ∧
          (op ≠ .opn → r.handle = s.sch.handle ∧ r.name = none) ∧
          r.words =
            (0#29 ++ (match f with | .a => 0#1 | .b => 1#1) ++
                (match op with | .opn => 0#2 | .read => 1#2 | .close => 2#2 | .reserved => 3#2),
              n, r.handle)

/-! ### The scheduler's actions -/

/-- R142. -/
def Obligations.StartOpenRequestsOpen : Prop :=
  ∀ s : State,
    s.sch.sound = true → s.sch.st = .idle → s.sch.ph = .ready → s.sch.startPend = true → s.sch.req.valid = false →
    s.sch.rsp.valid = false →
      exec .startOpen s =
        .next { s with
                sch :=
                  { s.sch with
                    st := .idle, ph := .opn, startPend := false
                    req :=
                      { valid := true, op := .opn, buf := .a, len := 0#32, handle := 0#32
                        name := some s.params.sourceName } }
                trace := s.trace ++ [0x0000000000000001#64] }

/-- R143: with its OWNERSHIP fault. -/
def Obligations.OpenOkKeepsTheHandleAndRequestsThePrimeRead : Prop :=
  ∀ (s : State) (x : Word),
    s.sch.sound = true → s.sch.ph = .opn → s.sch.rsp.valid = true → s.sch.rsp.op = .opn → s.sch.rsp.err = false →
    s.sch.req.valid = false →
      (s.sch.ownA = false →
        exec (.openOk x) s =
          .next { s with
                  sch :=
                    { s.sch with
                      st := .idle, ph := .prime, handle := s.sch.rsp.handle, hvalid := true
                      rsp := { s.sch.rsp with valid := false }
                      req :=
                        { valid := true, op := .read, buf := .a, len := s.params.bufferSize
                          handle := s.sch.rsp.handle, name := none } }
                  trace := s.trace ++ [s.params.bufferSize ++ 0x00000002#32] }) ∧
        (s.sch.ownA = true → exec (.openOk x) s = .next { s with faults := s.faults ||| 0x001#10 })

/-- R144, with the `LAST_BYTES = 0` that R200 and R201 record. That it is written in every state is the model's choice
(DEDUCED, notes/assumptions/23.md: R144's pseudocode does not write it out). -/
def Obligations.OpenFailHaltsWithoutAClose : Prop :=
  ∀ s : State,
    s.sch.sound = true → s.sch.ph = .opn → s.sch.rsp.valid = true → s.sch.rsp.op = .opn → s.sch.rsp.err = true →
      exec .openFail s =
        .next { s with
                sch :=
                  { s.sch with
                    st := .halted, ph := .stop, lastBytes := 0#32, cause := .sourceOpenError, msg := .openFail
                    rsp := { s.sch.rsp with valid := false } }
                console := s.console ++ [.openFail]
                trace := s.trace ++ [0x0000000000000203#64] }

/-- R150, R151: the two ways Prime fails, each with its cause, message, close request and record. -/
def Obligations.PrimeErrAndPrimeEmptyHaltAndRequestClose : Prop :=
  ∀ s : State,
    s.sch.sound = true → s.sch.ph = .prime → s.sch.rsp.valid = true → s.sch.rsp.op = .read → s.sch.req.valid = false →
      (s.sch.rsp.err = true →
        exec .primeErr s =
          .next { s with
                  sch :=
                    { s.sch with
                      st := .halted, ph := .close, lastBytes := 0#32, cause := .sourceReadError, msg := .readErr
                      rsp := { s.sch.rsp with valid := false }
                      req :=
                        { valid := true, op := .close, buf := .a, len := 0#32, handle := s.sch.handle, name := none } }
                  console := s.console ++ [.readErr]
                  trace := s.trace ++ [0x0000000000000210#64] }) ∧
        (s.sch.rsp.err = false → s.sch.rsp.bytes = 0#32 →
          exec .primeEmpty s =
            .next { s with
                    sch :=
                      { s.sch with
                        st := .halted, ph := .close, lastBytes := 0#32, cause := .emptySource, msg := .empty
                        rsp := { s.sch.rsp with valid := false }
                        req :=
                          { valid := true, op := .close, buf := .a, len := 0#32, handle := s.sch.handle
                            name := none } }
                    console := s.console ++ [.empty]
                    trace := s.trace ++ [0x0000000000000011#64] })

/-- R152. -/
def Obligations.PrimeShortReadsBufferAAgain : Prop :=
  ∀ (s : State) (x : Word),
    s.sch.sound = true → s.sch.ph = .prime → s.sch.rsp.valid = true → s.sch.rsp.op = .read → s.sch.rsp.err = false →
    1 ≤ s.sch.rsp.bytes.toNat → s.sch.rsp.bytes.toNat ≤ 3 → s.sch.req.valid = false → s.sch.ownA = false →
      exec (.primeShort x) s =
        .next { s with
                sch :=
                  { s.sch with
                    st := .idle, ph := .prime, lastBytes := s.sch.rsp.bytes
                    rsp := { s.sch.rsp with valid := false }
                    req :=
                      { valid := true, op := .read, buf := .a, len := s.params.bufferSize, handle := s.sch.handle
                        name := none } }
                trace := s.trace ++ [s.sch.rsp.bytes ++ 0x00000012#32] }

/-- R153, R100: the first transfer. -/
def Obligations.PrimeIssueStartsTheFirstTransfer : Prop :=
  ∀ (s : State) (x : Word),
    s.sch.sound = true → s.sch.ph = .prime → s.sch.rsp.valid = true → s.sch.rsp.op = .read → s.sch.rsp.err = false →
    4 ≤ s.sch.rsp.bytes.toNat → s.sch.rsp.bytes.toNat ≤ s.params.bufferSize.toNat → s.dma.busy = false →
    s.sch.ownA = false →
      ∃ w : Word, w.toNat = s.sch.rsp.bytes.toNat / 4 ∧
        exec (.primeIssue x) s =
          .next { s with
                  sch :=
                    { s.sch with
                      st := .primed, ph := .issued, active := .a, ownA := true, lastBytes := s.sch.rsp.bytes
                      rsp := { s.sch.rsp with valid := false }
                      xferCount := s.sch.xferCount + 1#32, lastWords := w }
                  dma :=
                    { readAddr := s.params.baseA, writeAddr := s.params.txfAddr, count := w, buf := .a
                      incrRead := true, incrWrite := false, dataSize := 2#2, busy := true, done := false }
                  trace := s.trace ++ [w ++ 0x00000013#32] }

/-- R160: with its OWNERSHIP fault. -/
def Obligations.FillReqRequestsTheFillableBuffer : Prop :=
  ∀ (s : State) (x : Buf) (y : Word) (f : Buf),
    s.sch.sound = true → s.sch.ph = .issued → s.sch.st = .primed ∨ s.sch.st = .streaming → s.sch.req.valid = false →
    s.sch.rsp.valid = false → f ≠ s.sch.active →
      (s.sch.own f = false →
        exec (.fillReq x y) s =
          .next { s with
                  sch :=
                    { s.sch with
                      st := .streaming, ph := .fill
                      req :=
                        { valid := true, op := .read, buf := f, len := s.params.bufferSize, handle := s.sch.handle
                          name := none } }
                  trace :=
                    s.trace ++
                      [s.params.bufferSize ++ (match f with | .a => 0x00000020#32 | .b => 0x00000120#32)] }) ∧
        (s.sch.own f = true → exec (.fillReq x y) s = .next { s with faults := s.faults ||| 0x001#10 })

/-- R161, R162: the two ways streaming ends; the channel is not touched. -/
def Obligations.FillErrAndFillEosEndTheSessionAndRequestClose : Prop :=
  ∀ (s : State) (x f : Buf),
    s.sch.sound = true → s.sch.ph = .fill → s.sch.rsp.valid = true → s.sch.rsp.op = .read → s.sch.req.valid = false →
    f ≠ s.sch.active →
      (s.sch.rsp.err = true →
        exec (.fillErr x) s =
          .next { s with
                  sch :=
                    { s.sch with
                      st := .halted, ph := .close, lastBytes := 0#32, cause := .sourceReadError, msg := .readErr
                      rsp := { s.sch.rsp with valid := false }
                      req :=
                        { valid := true, op := .close, buf := .a, len := 0#32, handle := s.sch.handle, name := none } }
                  console := s.console ++ [.readErr]
                  trace := s.trace ++ [match f with | .a => 0x0000000000000221#64 | .b => 0x0000000000000321#64] }) ∧
        (s.sch.rsp.err = false → s.sch.rsp.bytes = 0#32 →
          exec (.fillEos x) s =
            .next { s with
                    sch :=
                      { s.sch with
                        st := .done, ph := .close, lastBytes := 0#32, cause := .endOfSource, msg := .eos
                        rsp := { s.sch.rsp with valid := false }
                        req :=
                          { valid := true, op := .close, buf := .a, len := 0#32, handle := s.sch.handle
                            name := none } }
                    console := s.console ++ [.eos]
                    trace :=
                      s.trace ++ [match f with | .a => 0x0000000000000022#64 | .b => 0x0000000000000122#64] })

/-- R163. -/
def Obligations.FillShortReadsTheSameBufferAgain : Prop :=
  ∀ (s : State) (x : Buf) (y : Word) (f : Buf),
    s.sch.sound = true → s.sch.ph = .fill → s.sch.rsp.valid = true → s.sch.rsp.op = .read → s.sch.rsp.err = false →
    1 ≤ s.sch.rsp.bytes.toNat → s.sch.rsp.bytes.toNat ≤ 3 → s.sch.req.valid = false → f ≠ s.sch.active →
    s.sch.own f = false →
      exec (.fillShort x y) s =
        .next { s with
                sch :=
                  { s.sch with
                    st := .streaming, ph := .fill, lastBytes := s.sch.rsp.bytes
                    rsp := { s.sch.rsp with valid := false }
                    req :=
                      { valid := true, op := .read, buf := f, len := s.params.bufferSize, handle := s.sch.handle
                        name := none } }
                trace :=
                  s.trace ++ [s.sch.rsp.bytes ++ (match f with | .a => 0x00000023#32 | .b => 0x00000123#32)] }

/-- R164, R100. -/
def Obligations.FillOkHoldsTheFilledBuffer : Prop :=
  ∀ (s : State) (x : Buf) (y : Word) (f : Buf),
    s.sch.sound = true → s.sch.ph = .fill → s.sch.rsp.valid = true → s.sch.rsp.op = .read → s.sch.rsp.err = false →
    4 ≤ s.sch.rsp.bytes.toNat → f ≠ s.sch.active →
      ∃ w : Word, w.toNat = s.sch.rsp.bytes.toNat / 4 ∧
        exec (.fillOk x y) s =
          .next { s with
                  sch :=
                    { s.sch with
                      st := .streaming, ph := .wait, lastBytes := s.sch.rsp.bytes, pendWords := w
                      rsp := { s.sch.rsp with valid := false } }
                  trace :=
                    s.trace ++ [s.sch.rsp.bytes ++ (match f with | .a => 0x00000024#32 | .b => 0x00000124#32)] }

/-- R165: release, issue and flip in one step. -/
def Obligations.WaitIssueReleasesIssuesAndFlips : Prop :=
  ∀ (s : State) (x : Buf) (y : Word) (f : Buf),
    s.sch.sound = true → s.sch.ph = .wait → s.dma.done = true → s.dma.busy = false → s.sch.pendWords ≠ 0#32 →
    s.sch.pendWords.toNat ≤ s.params.bufferSize.toNat / 4 → f ≠ s.sch.active → s.sch.own f = false →
      exec (.waitIssue x y) s =
        .next { s with
                sch :=
                  { s.sch with
                    st := .streaming, ph := .issued, active := f, pendWords := 0#32
                    ownA := match f with | .a => true | .b => false
                    ownB := match f with | .a => false | .b => true
                    xferCount := s.sch.xferCount + 1#32, lastWords := s.sch.pendWords }
                dma :=
                  { readAddr := match f with | .a => s.params.baseA | .b => s.params.baseB
                    writeAddr := s.params.txfAddr, count := s.sch.pendWords, buf := f, incrRead := true
                    incrWrite := false, dataSize := 2#2, busy := true, done := false }
                trace :=
                  s.trace ++ [s.sch.pendWords ++ (match f with | .a => 0x00000025#32 | .b => 0x00000125#32)] }

/-- R180. -/
def Obligations.CloseDoneReleasesTheHandle : Prop :=
  ∀ s : State,
    s.sch.sound = true → s.sch.ph = .close → s.sch.rsp.valid = true → s.sch.rsp.op = .close →
      exec .closeDone s =
        .next { s with
                sch := { s.sch with ph := .stop, hvalid := false, rsp := { s.sch.rsp with valid := false } }
                trace := s.trace ++ [0x0000000000000030#64] }

/-! ### The host's actions -/

/-- R140, R87, R97: a write at one of the eight offsets is traced, and sets `START_PEND` exactly for the start command in
`(IDLE, READY)`. -/
def Obligations.HostWriteOnlySetsStartPend : Prop :=
  ∀ (s : State) (ofs : BitVec 8) (v : Word), ofs.toNat < 0x20 → ofs.toNat % 4 = 0 →
    exec (.hostWrite ofs v) s =
      .next { s with
              sch :=
                { s.sch with
                  startPend :=
                    s.sch.startPend ||
                      decide (ofs = 0#8 ∧ v.toNat % 2 = 1 ∧ s.sch.st = .idle ∧ s.sch.ph = .ready) }
              trace := s.trace ++ [v ++ 0#8 ++ ofs ++ 0x0040#16] }

/-- R141, R85, R88, R103: a read at each of the eight offsets returns, in its record, the register named there, and changes
nothing else; `MSG` reads as the number of its message. -/
def Obligations.HostReadReturnsTheRegister : Prop :=
  ∀ (s : State) (x : Word),
    exec (.hostRead 0x00#8 x) s = .next { s with trace := s.trace ++ [0x00000000#32 ++ 0x00000041#32] } ∧
      exec (.hostRead 0x04#8 x) s = .next { s with trace := s.trace ++ [s.status ++ 0x00040041#32] } ∧
      exec (.hostRead 0x08#8 x) s = .next { s with trace := s.trace ++ [s.sch.xferCount ++ 0x00080041#32] } ∧
      exec (.hostRead 0x0C#8 x) s = .next { s with trace := s.trace ++ [s.sch.lastWords ++ 0x000C0041#32] } ∧
      exec (.hostRead 0x10#8 x) s = .next { s with trace := s.trace ++ [s.sch.lastBytes ++ 0x00100041#32] } ∧
      exec (.hostRead 0x14#8 x) s = .next { s with trace := s.trace ++ [s.sch.pendWords ++ 0x00140041#32] } ∧
      exec (.hostRead 0x18#8 x) s = .next { s with trace := s.trace ++ [s.params.bufferSize ++ 0x00180041#32] } ∧
      exec (.hostRead 0x1C#8 x) s = .next { s with trace := s.trace ++ [(match s.sch.msg with
                      | .none => 0#32
                      | .openFail => 1#32
                      | .empty => 2#32
                      | .readErr => 3#32
                      | .eos => 4#32
                      | .reserved5 => 5#32
                      | .reserved6 => 6#32
                      | .reserved7 => 7#32) ++ 0x001C0041#32] }

/-- R89 read on an 8-bit offset (DEDUCED, notes/assumptions/12.md): inside the window and not 4-aligned it is refused,
outside the window it is not the block's. -/
def Obligations.HostActionsAtOtherOffsets : Prop :=
  ∀ (s : State) (ofs : BitVec 8) (v : Word),
    (ofs.toNat < 0x20 → ofs.toNat % 4 ≠ 0 →
        exec (.hostWrite ofs v) s = .next { s with refused := true } ∧
          exec (.hostRead ofs v) s = .next { s with refused := true }) ∧
      (0x20 ≤ ofs.toNat → exec (.hostWrite ofs v) s = .next s ∧ exec (.hostRead ofs v) s = .next s)

/-- R86, R34: every field of `STATUS`, with the numbers of R20, R21 and R29, and the codes that are never read where the
scheduler's state holds no reserved code. -/
def Obligations.StatusFields : Prop :=
  ∀ s : State,
    (s.status.extractLsb' 0 3 =
        match s.sch.st with
        | .idle => 0#3
        | .primed => 1#3
        | .streaming => 2#3
        | .done => 3#3
        | .halted => 4#3
        | .reserved5 => 5#3
        | .reserved6 => 6#3
        | .reserved7 => 7#3) ∧
      (s.status.extractLsb' 3 3 =
        match s.sch.ph with
        | .ready => 0#3
        | .opn => 1#3
        | .prime => 2#3
        | .issued => 3#3
        | .fill => 4#3
        | .wait => 5#3
        | .close => 6#3
        | .stop => 7#3) ∧
      s.status.getLsbD 6 = decide (s.sch.active = .b) ∧ s.status.getLsbD 7 = s.sch.ownA ∧ s.status.getLsbD 8 = s.sch.ownB ∧
      s.status.getLsbD 9 = s.dma.busy ∧ s.status.getLsbD 10 = s.dma.done ∧
      s.status.getLsbD 11 = (s.dma.busy && (decide (s.sch.st = .done) || decide (s.sch.st = .halted))) ∧
      s.status.getLsbD 12 = s.sch.hvalid ∧ s.status.getLsbD 13 = s.sch.startPend ∧
      s.status.getLsbD 14 = s.sch.req.valid ∧ s.status.getLsbD 15 = s.sch.rsp.valid ∧
      (s.status.extractLsb' 16 3 =
        match s.sch.cause with
        | .none => 0#3
        | .endOfSource => 1#3
        | .sourceOpenError => 2#3
        | .emptySource => 3#3
        | .sourceReadError => 4#3
        | .reserved5 => 5#3
        | .reserved6 => 6#3
        | .reserved7 => 7#3) ∧
      s.status.extractLsb' 19 13 = 0#13 ∧
      (s.sch.sound = true → (s.status.extractLsb' 0 3).toNat ≤ 4 ∧ (s.status.extractLsb' 16 3).toNat ≤ 4)

/-! ### The environment's actions -/

/-- R133: one word moves from the buffer to the queue; the last one completes the transfer. A fault of `MemRead` is the
step's only effect, its bit by the numbers of R207. That a move offered on an idle channel or a full queue is a next state in
which nothing changes is the model's choice (DESIGN CHOICE, notes/assumptions/2.md: R12 and R133 give a hold, no step). -/
def Obligations.DmaMoveMovesOneWord : Prop :=
  ∀ (s : State) (x : Buf) (y : Word),
    (s.dma.busy = true → s.soe.q.length < s.params.queueDepth →
        (∀ w, memRead s.params.toParams s.bufmem s.dma.readAddr = .ok w →
            exec (.dmaMove x y) s =
              .next { s with
                      soe := { s.soe with q := s.soe.q ++ [w] }
                      dma :=
                        { s.dma with
                          readAddr := s.dma.readAddr + 4#32, count := s.dma.count - 1#32
                          busy := decide (s.dma.count ≠ 1#32)
                          done := s.dma.done || decide (s.dma.count = 1#32) }
                      trace :=
                        s.trace ++ [w ++ (match s.dma.buf with | .a => 0x00000050#32 | .b => 0x00000150#32)] }) ∧
          ∀ f, memRead s.params.toParams s.bufmem s.dma.readAddr = .error f →
            (f = .busRange ∧ exec (.dmaMove x y) s = .next { s with faults := s.faults ||| 0x008#10 }) ∨
              (f = .misaligned ∧ exec (.dmaMove x y) s = .next { s with faults := s.faults ||| 0x010#10 }) ∨
              (f = .unwrittenRead ∧ exec (.dmaMove x y) s = .next { s with faults := s.faults ||| 0x020#10 })) ∧
      (s.dma.busy = false ∨ s.params.queueDepth ≤ s.soe.q.length → exec (.dmaMove x y) s = .next s)

/-- R123: the head of the queue leaves, its bits in `P_SHIFT_ORDER`. That an emission offered on an empty queue is a next state
in which nothing changes is the model's choice (DESIGN CHOICE, notes/assumptions/2.md: by R122 the engine then has no enabled
action). -/
def Obligations.SoeEmitShiftsOutTheHead : Prop :=
  ∀ (s : State) (x w : Word) (q : List Word),
    (s.soe.q = w :: q →
        exec (.soeEmit x) s =
          .next { s with
                  soe :=
                    { q := q
                      line := .level (match s.params.shiftOrder with
                        | .msbFirst => w.getLsbD 0
                        | .lsbFirst => w.getLsbD 31)
                      out :=
                        s.soe.out ++
                          List.ofFn fun k : Fin 32 =>
                            match s.params.shiftOrder with
                            | .msbFirst => w.getLsbD (31 - k)
                            | .lsbFirst => w.getLsbD k }
                  trace := s.trace ++ [w ++ 0x00000060#32] }) ∧
      (s.soe.q = [] → exec (.soeEmit x) s = .next s)

/-- R192. -/
def Obligations.SrcOpenRspAnswersOpen : Prop :=
  ∀ (s : State) (err : Bool) (h : Word),
    s.sch.req.valid = true → s.sch.req.op = .opn → s.sch.rsp.valid = false →
      exec (.srcOpenRsp err h) s =
        .next { s with
                sch :=
                  { s.sch with
                    req := { s.sch.req with valid := false }
                    rsp :=
                      { valid := true, op := .opn, err := err, bytes := 0#32
                        handle := if err = true then 0#32 else h } }
                trace :=
                  s.trace ++
                    [(if err = true then 0#32 else h) ++ (if err = true then 0x00000270#32 else 0x00000070#32)] }

/-- R193: a read answer inside the contract writes its `b` data bytes, in order from the start of the requested buffer, no
other byte, and responds; one outside the contract, or into an owned buffer, faults. Where the data bytes come from is the
model's choice (DESIGN CHOICE, notes/assumptions/4.md): the front of `env.feed`, which they leave, and past its end the free
bytes, which the counter `env.draws` counts. -/
def Obligations.SrcReadRspFillsTheRequestedBuffer : Prop :=
  ∀ (s : State) (x : Buf) (err : Bool) (b : Word),
    s.sch.req.valid = true → s.sch.req.op = .read → s.sch.rsp.valid = false →
      (b.toNat ≤ s.sch.req.len.toNat → s.sch.req.len.toNat ≤ s.params.bufferSize.toNat → (err = true → b = 0#32) →
        s.sch.own s.sch.req.buf = false →
          ∃ t : State,
            exec (.srcReadRsp x err b) s = .next t ∧
              (∀ k, k < b.toNat →
                t.bufmem.read ((bufBase s.params.toParams s.sch.req.buf).toNat + k) =
                  match s.env.feed[k]? with
                  | some v => some v
                  | none => some (Config.freeByte (s.env.draws + (k - s.env.feed.length)))) ∧
              (∀ a, a < (bufBase s.params.toParams s.sch.req.buf).toNat ∨
                  (bufBase s.params.toParams s.sch.req.buf).toNat + b.toNat ≤ a →
                t.bufmem.read a = s.bufmem.read a) ∧
              t =
                { s with
                  bufmem := t.bufmem
                  env :=
                    { s.env with
                      feed := s.env.feed.drop b.toNat
                      draws := s.env.draws + (b.toNat - s.env.feed.length) }
                  sch :=
                    { s.sch with
                      req := { s.sch.req with valid := false }
                      rsp := { valid := true, op := .read, err := err, bytes := b, handle := 0#32 } }
                  trace :=
                    s.trace ++
                      [b ++ 0#22 ++ BitVec.ofBool err ++
                        (match s.sch.req.buf with | .a => 0x071#9 | .b => 0x171#9)] }) ∧
        (s.sch.req.len.toNat < b.toNat ∨ (err = true ∧ b ≠ 0#32) →
          exec (.srcReadRsp x err b) s = .next { s with faults := s.faults ||| 0x080#10 }) ∧
        (b.toNat ≤ s.sch.req.len.toNat → (err = true → b = 0#32) → s.sch.own s.sch.req.buf = true →
          exec (.srcReadRsp x err b) s = .next { s with faults := s.faults ||| 0x001#10 })

/-- R194. -/
def Obligations.SrcCloseRspAcknowledgesClose : Prop :=
  ∀ s : State,
    s.sch.req.valid = true → s.sch.req.op = .close → s.sch.rsp.valid = false →
      exec .srcCloseRsp s =
        .next { s with
                sch :=
                  { s.sch with
                    req := { s.sch.req with valid := false }
                    rsp := { valid := true, op := .close, err := false, bytes := 0#32, handle := 0#32 } }
                trace := s.trace ++ [0x0000000000000072#64] }

/-! ### Reset and configuration -/

/-- R230, R47: from any state `RESET` leaves every piece of state at its value of R47, with its own record traced. -/
def Obligations.ResetLeavesTheResetTable : Prop :=
  ∀ s : State, ∃ t, exec .reset s = .next t ∧
    t.sch.st = .idle ∧ t.sch.ph = .ready ∧ t.sch.active = .a ∧ t.sch.startPend = false ∧ t.sch.hvalid = false ∧
    t.sch.ownA = false ∧ t.sch.ownB = false ∧ t.sch.pendWords = 0#32 ∧ t.sch.cause = .none ∧ t.sch.msg = .none ∧
    t.sch.xferCount = 0#32 ∧ t.sch.lastWords = 0#32 ∧ t.sch.lastBytes = 0#32 ∧ t.sch.req.valid = false ∧
    t.sch.rsp.valid = false ∧ t.faults = 0#10 ∧ t.refused = false ∧
    t.dma =
      { readAddr := 0#32, writeAddr := 0#32, count := 0#32, buf := .a, incrRead := false, incrWrite := false
        dataSize := 0#2, busy := false, done := false } ∧
    t.soe = { q := [], line := .unspecified, out := [] } ∧ (∀ a, t.bufmem.read a = none) ∧
    t.trace = [0x00000000000000F0#64] ∧ t.console = [] ∧ t.status = 0#32

/-- What the model chooses for `RESET` where R47 leaves a value unspecified (notes/assumptions/6.md, 7.md, 8.md), and that it
keeps the configuration and the environment's own fields (notes/assumptions/21.md). -/
def Obligations.ResetChosenValues : Prop :=
  ∀ s : State, ∃ t, exec .reset s = .next t ∧ t.sch.handle = 0#32 ∧
    t.sch.req = { valid := false, op := .opn, buf := .a, len := 0#32, handle := 0#32, name := none } ∧
    t.sch.rsp = { valid := false, op := .opn, err := false, bytes := 0#32, handle := 0#32 } ∧
    t.params = s.params ∧ t.env = s.env

/-- R231, R6, R7: the power-on state of every valid parameter set is the state `RESET` leaves; the valid sets are exactly those
that meet the constraints of R6 and R7; and an invalid set is refused at configuration. The form of the refusal is the model's
(DEDUCED, notes/assumptions/13.md). That `RESET` of the power-on state is that very state rests on the model's values where
R47 leaves a register unspecified (DESIGN CHOICE, notes/assumptions/6.md, 7.md, 8.md), on `SOE.LINE` holding the spec's
`unspecified` (DEDUCED, notes/assumptions/9.md), and on reset keeping what is no state of R47 (DEDUCED,
notes/assumptions/21.md). -/
def Obligations.ConfigurationGivesThePowerOnState : Prop :=
  (∀ p : ValidParams,
      State.configure p.toParams = .next (State.powerOn p) ∧
        exec .reset (State.powerOn p) = .next (State.powerOn p) ∧ (State.powerOn p).trace = [0x00000000000000F0#64]) ∧
    (∀ p : Params,
      let size := p.bufferSize.toNat
      let inA := fun a : Nat => p.baseA.toNat ≤ a ∧ a < p.baseA.toNat + size
      let inB := fun a : Nat => p.baseB.toNat ≤ a ∧ a < p.baseB.toNat + size
      p.valid = true ↔
        (4 ≤ size ∧ size % 4 = 0 ∧ size ≤ 2 ^ 32 - 4 ∧ p.baseA.toNat % 4 = 0 ∧ p.baseB.toNat % 4 = 0 ∧
            p.txfAddr.toNat % 4 = 0 ∧ p.regBase.toNat % 4 = 0 ∧ 1 ≤ p.queueDepth) ∧
          (∀ a, ¬(inA a ∧ inB a)) ∧ (∀ k < 4, ¬inA (p.txfAddr.toNat + k) ∧ ¬inB (p.txfAddr.toNat + k)) ∧
          p.baseA.toNat + size ≤ 2 ^ 32 ∧ p.baseB.toNat + size ≤ 2 ^ 32) ∧
    ∀ p : Params, p.valid = false → State.configure p = .refused .badParameters

/-- R6: no step changes a parameter. -/
def Obligations.NoStepChangesAParameter : Prop :=
  ∀ s t : State, step s = .next t → t.params = s.params

/-! ### Whole-machine rules -/

/-- R167: two enabled scheduler actions are the same action. -/
def Obligations.AtMostOneSchedulerActionIsEnabled : Prop :=
  ∀ (s : State) (i j : Instr), isSchedulerAction i = true → isSchedulerAction j = true → enabled i s = true →
    enabled j s = true → actCode i = actCode j

/-- R181: in phase `STOP` no scheduler action is enabled, the phase is left by reset only, and a start is ignored. -/
def Obligations.StopHasNoSchedulerAction : Prop :=
  ∀ (s : State) (i : Instr), s.sch.ph = .stop →
    (isSchedulerAction i = true → enabled i s = false) ∧
      (i ≠ .reset → ∀ t, exec i s = .next t → t.sch.st = s.sch.st ∧ t.sch.ph = .stop) ∧
      ∀ v t, exec (.hostWrite 0#8 v) s = .next t → t.sch = s.sch

/-- R182, R173, R202: `DONE` and `HALTED` are left by reset only, and what the session recorded stays. -/
def Obligations.TerminalStatesAbsorb : Prop :=
  ∀ (i : Instr) (s t : State), i ≠ .reset → s.sch.st = .done ∨ s.sch.st = .halted → exec i s = .next t →
    t.sch.st = s.sch.st ∧ t.sch.cause = s.sch.cause ∧ t.sch.msg = s.sch.msg ∧ t.sch.xferCount = s.sch.xferCount ∧
      t.sch.lastWords = s.sch.lastWords ∧ t.sch.active = s.sch.active ∧ t.sch.ownA = s.sch.ownA ∧
      t.sch.ownB = s.sch.ownB ∧ t.sch.lastBytes = s.sch.lastBytes ∧ t.sch.pendWords = s.sch.pendWords ∧
      t.console = s.console

/-- R185, R200, R201: the five ways a session ends (that `OPEN_FAIL` too writes `LAST_BYTES` in every state: DEDUCED,
notes/assumptions/23.md). -/
def Obligations.ASessionEndsInOneOfFiveWays : Prop :=
  ∀ (i : Instr) (s t : State), exec i s = .next t → s.sch.cause = .none → t.sch.cause ≠ .none →
    t.dma = s.dma ∧ t.sch.xferCount = s.sch.xferCount ∧ t.sch.rsp.valid = false ∧ t.sch.lastBytes = 0#32 ∧
      ((i = .openFail ∧ t.sch.st = .halted ∧ t.sch.ph = .stop ∧ t.sch.cause = .sourceOpenError ∧
            t.sch.msg = .openFail ∧ t.console = s.console ++ [.openFail] ∧ t.sch.req = s.sch.req) ∨
        (t.sch.ph = .close ∧ t.sch.req.valid = true ∧ t.sch.req.op = .close ∧
          t.sch.req.handle = s.sch.handle ∧ t.console = s.console ++ [t.sch.msg] ∧
          ((i = .primeEmpty ∧ t.sch.st = .halted ∧ t.sch.cause = .emptySource ∧ t.sch.msg = .empty) ∨
            (i = .primeErr ∧ t.sch.st = .halted ∧ t.sch.cause = .sourceReadError ∧ t.sch.msg = .readErr) ∨
            ((∃ f, i = .fillErr f) ∧ t.sch.st = .halted ∧ t.sch.cause = .sourceReadError ∧ t.sch.msg = .readErr) ∨
            ((∃ f, i = .fillEos f) ∧ t.sch.st = .done ∧ t.sch.cause = .endOfSource ∧ t.sch.msg = .eos))))

/-- R135, R173: only `PRIME_ISSUE`, `WAIT_ISSUE`, `DMA_MOVE` and `RESET` change the channel, and a transfer stops being busy
only by its last word or by reset. -/
def Obligations.TheChannelIsNeverCancelled : Prop :=
  ∀ (i : Instr) (s t : State), exec i s = .next t →
    (t.dma ≠ s.dma →
        (∃ w, i = .primeIssue w) ∨ (∃ f w, i = .waitIssue f w) ∨ (∃ f w, i = .dmaMove f w) ∨ i = .reset) ∧
      (s.dma.busy = true → t.dma.busy = false →
        i = .reset ∨ ((∃ f w, i = .dmaMove f w) ∧ s.dma.count = 1#32 ∧ t.dma.done = true))

/-- R172: every transfer issued has the word count `floor(b/4)` of the read that filled its buffer, and `b >= 4`. -/
def Obligations.WordCountsAreThoseOfTheReads : Prop :=
  ∀ (i : Instr) (s t : State), i ≠ .reset → exec i s = .next t →
    (t.sch.xferCount ≠ s.sch.xferCount →
        ((∃ w, i = .primeIssue w) ∧ 4 ≤ s.sch.rsp.bytes.toNat ∧
            t.sch.lastWords.toNat = s.sch.rsp.bytes.toNat / 4 ∧ t.dma.count = t.sch.lastWords) ∨
          ((∃ f w, i = .waitIssue f w) ∧ t.sch.lastWords = s.sch.pendWords ∧ t.dma.count = s.sch.pendWords)) ∧
      (t.sch.pendWords ≠ s.sch.pendWords →
        ((∃ f w, i = .fillOk f w) ∧ 4 ≤ s.sch.rsp.bytes.toNat ∧
            t.sch.pendWords.toNat = s.sch.rsp.bytes.toNat / 4) ∨
          ((∃ f w, i = .waitIssue f w) ∧ t.sch.pendWords = 0#32))

/-- R211: on a queue that is neither empty nor full, `SOE_EMIT` and `DMA_MOVE` commute but for the order of their records. -/
def Obligations.EmitAndMoveCommute : Prop :=
  ∀ (s a b c d : State) (f : Buf) (x y : Word), s.soe.q ≠ [] → s.soe.q.length < s.params.queueDepth →
    exec (.soeEmit x) s = .next a → exec (.dmaMove f y) a = .next b → exec (.dmaMove f y) s = .next c →
    exec (.soeEmit x) c = .next d → { d with trace := b.trace } = b ∧ d.trace.Perm b.trace

/-- R183: in a final state no agent but the host has an enabled action, and a host access changes only `TRACE`. -/
def Obligations.FinalStatesAreQuiescent : Prop :=
  ∀ s : State, s.final →
    s.quiescent ∧ ¬s.stuck ∧
      ∀ (ofs : BitVec 8) (v : Word), ofs.toNat < 0x20 → ofs.toNat % 4 = 0 →
        (∃ t, exec (.hostWrite ofs v) s = .next t ∧ t = { s with trace := t.trace }) ∧
          ∃ t, exec (.hostRead ofs v) s = .next t ∧ t = { s with trace := t.trace }

/-! ### Invariants -/

/-- R22, R26, R82, R168, R169, R171, R185, R200, R207, R254: the invariant of the reachable states is kept by every step. -/
def Obligations.EveryStepKeepsTheInvariant : Prop :=
  ∀ s t : State, s.Inv → step s = .next t → t.Inv

/-- The invariant and the output order hold at power-on under every valid parameter set, PS16 of `State.reset` among them. -/
def Obligations.TheInvariantsHoldAtReset : Prop :=
  (∀ p : ValidParams, (State.powerOn p).Inv ∧ (State.powerOn p).fifo ∧ (State.powerOn p).traceValid) ∧ State.reset.Inv

/-- R207: where the invariant holds, the only fault an action raises is `SRC_CONTRACT`, and only an answer of the source that
breaks its contract raises it. -/
def Obligations.OnlyTheSourceCanCauseAFault : Prop :=
  ∀ (i : Instr) (s t : State), s.Inv → i ≠ .reset → exec i s = .next t → t ≠ s → t.trace = s.trace →
    t = { s with refused := true } ∨
      (t = { s with faults := s.faults ||| 0x080#10 } ∧
        ∃ (f : Buf) (err : Bool) (b : Word), i = .srcReadRsp f err b ∧
          (s.sch.req.len.toNat < b.toNat ∨ (err = true ∧ b ≠ 0#32)))

/-- R170, R74, R244: where the invariant holds, no action but reset changes a byte of the buffer in flight, and a read answer
never targets it. -/
def Obligations.TheInFlightBufferIsNeverWritten : Prop :=
  ∀ (i : Instr) (s t : State), s.Inv → i ≠ .reset → s.dma.busy = true → exec i s = .next t →
    (∀ k, k < s.params.bufferSize.toNat →
        t.bufmem.read ((bufBase s.params.toParams s.dma.buf).toNat + k) =
          s.bufmem.read ((bufBase s.params.toParams s.dma.buf).toNat + k)) ∧
      (s.sch.req.valid = true → s.sch.req.op = .read → s.sch.req.buf ≠ s.dma.buf)

/-- R254: where the invariant holds, in `WAIT` the re-trigger is enabled the moment `DONE = 1`, and it issues `PEND_WORDS` words
that are already in the buffer. -/
def Obligations.TheRetriggerNeedsNoSourceRead : Prop :=
  ∀ (s : State) (f : Buf) (w : Word), s.Inv → s.sch.ph = .wait → s.dma.done = true →
    enabled (.waitIssue f w) s = true ∧
      ∃ t, exec (.waitIssue f w) s = .next t ∧ t.dma.busy = true ∧ t.dma.count = s.sch.pendWords ∧
        t.sch.active = otherBuf s.sch.active ∧ t.dma.buf = t.sch.active ∧ t.sch.req = s.sch.req ∧
        ∀ k, k < 4 * t.dma.count.toNat → (t.bufmem.read (t.dma.readAddr.toNat + k)).isSome = true

/-- R77, R134, R123: every step keeps that the words moved are the words emitted followed by the queue, and that the line has
carried exactly the bits of the words emitted. -/
def Obligations.EveryStepKeepsTheOutputOrder : Prop :=
  ∀ s t : State, s.fifo → step s = .next t → t.fifo

/-- R95, R96: every step keeps that all records of the trace decode, and appends at most one record. -/
def Obligations.NoStepProducesAnInvalidRecord : Prop :=
  ∀ s t : State, s.traceValid → step s = .next t →
    t.traceValid ∧ (t.trace = s.trace ∨ (∃ r, t.trace = s.trace ++ [r]) ∨ t.trace = [0x00000000000000F0#64])

/-- Memory keeps its canonical form in every step, from every state (the representation is the model's,
notes/assumptions/17.md). -/
def Obligations.MemoryStaysCanonical : Prop :=
  ∀ s t : State, s.bufmem.wf → step s = .next t → t.bufmem.wf
end

