-- ==== Sys2Proof/Laws/State.lean ====
section
/-! SUPPORT. One lemma per field per update of the state, each true by `rfl`, so that no proof unfolds a record update;
the ownership flags; and what the channel holds after a descriptor has been written to it. -/

namespace Sys2Proof.Machine

variable (s : State)

/-! ### The buffer ids and the ownership flags -/

@[simp] theorem otherBuf_a : otherBuf .a = .b := rfl
@[simp] theorem otherBuf_b : otherBuf .b = .a := rfl
@[simp] theorem otherBuf_otherBuf (i : Buf) : otherBuf (otherBuf i) = i := by cases i <;> rfl
@[simp] theorem otherBuf_ne (i : Buf) : otherBuf i ≠ i := by cases i <;> decide
@[simp] theorem ne_otherBuf (i : Buf) : i ≠ otherBuf i := by cases i <;> decide
@[simp] theorem ofBit_toBit (i : Buf) : Buf.ofBit i.toBit = i := by cases i <;> rfl
@[simp] theorem toBit_ofBit (b : Bool) : (Buf.ofBit b).toBit = b := by cases b <;> rfl
@[simp] theorem toBit_otherBuf (i : Buf) : (otherBuf i).toBit = !i.toBit := by cases i <;> rfl

section Own
variable (c : Sch) (i j : Buf) (v : Bool)
@[simp] theorem Sch.own_setOwn_same : (c.setOwn i v).own i = v := by cases i <;> rfl
@[simp] theorem Sch.own_setOwn_other : (c.setOwn i v).own (otherBuf i) = c.own (otherBuf i) := by cases i <;> rfl
@[simp] theorem Sch.own_other_setOwn : (c.setOwn (otherBuf i) v).own i = c.own i := by cases i <;> rfl
@[simp] theorem Sch.setOwn_st : (c.setOwn i v).st = c.st := by cases i <;> rfl
@[simp] theorem Sch.setOwn_ph : (c.setOwn i v).ph = c.ph := by cases i <;> rfl
@[simp] theorem Sch.setOwn_active : (c.setOwn i v).active = c.active := by cases i <;> rfl
@[simp] theorem Sch.setOwn_startPend : (c.setOwn i v).startPend = c.startPend := by cases i <;> rfl
@[simp] theorem Sch.setOwn_handle : (c.setOwn i v).handle = c.handle := by cases i <;> rfl
@[simp] theorem Sch.setOwn_hvalid : (c.setOwn i v).hvalid = c.hvalid := by cases i <;> rfl
@[simp] theorem Sch.setOwn_pendWords : (c.setOwn i v).pendWords = c.pendWords := by cases i <;> rfl
@[simp] theorem Sch.setOwn_cause : (c.setOwn i v).cause = c.cause := by cases i <;> rfl
@[simp] theorem Sch.setOwn_msg : (c.setOwn i v).msg = c.msg := by cases i <;> rfl
@[simp] theorem Sch.setOwn_xferCount : (c.setOwn i v).xferCount = c.xferCount := by cases i <;> rfl
@[simp] theorem Sch.setOwn_lastWords : (c.setOwn i v).lastWords = c.lastWords := by cases i <;> rfl
@[simp] theorem Sch.setOwn_lastBytes : (c.setOwn i v).lastBytes = c.lastBytes := by cases i <;> rfl
@[simp] theorem Sch.setOwn_req : (c.setOwn i v).req = c.req := by cases i <;> rfl
@[simp] theorem Sch.setOwn_rsp : (c.setOwn i v).rsp = c.rsp := by cases i <;> rfl
end Own

/-! ### The channel after a descriptor -/

/-- R99: what `CTRL_TRIG` says for either buffer. -/
theorem Dma.load_descriptor (d : Dma) (p : Params) (i : Buf) (w : Word) :
    d.load (descriptor p i w) =
      { readAddr := bufBase p i, writeAddr := p.txfAddr, count := w, buf := i, incrRead := true, incrWrite := false
        dataSize := 2#2, busy := true, done := false } := by
  cases i <;> simp [Dma.load, descriptor, ctrlTrig, Buf.toBit, Buf.ofBit]

@[simp] theorem State.trigger_dma (i : Buf) (w : Word) :
    (s.trigger i w).dma =
      { readAddr := bufBase s.params.toParams i, writeAddr := s.params.txfAddr, count := w, buf := i
        incrRead := true, incrWrite := false, dataSize := 2#2, busy := true, done := false } :=
  Dma.load_descriptor s.dma s.params.toParams i w

/-! ### `goto` -/

section
variable (st : St) (ph : Ph)
@[simp] theorem State.goto_params : (s.goto st ph).params = s.params := rfl
@[simp] theorem State.goto_sch : (s.goto st ph).sch = { s.sch with st := st, ph := ph } := rfl
@[simp] theorem State.goto_dma : (s.goto st ph).dma = s.dma := rfl
@[simp] theorem State.goto_soe : (s.goto st ph).soe = s.soe := rfl
@[simp] theorem State.goto_bufmem : (s.goto st ph).bufmem = s.bufmem := rfl
@[simp] theorem State.goto_faults : (s.goto st ph).faults = s.faults := rfl
@[simp] theorem State.goto_refused : (s.goto st ph).refused = s.refused := rfl
@[simp] theorem State.goto_trace : (s.goto st ph).trace = s.trace := rfl
@[simp] theorem State.goto_console : (s.goto st ph).console = s.console := rfl
@[simp] theorem State.goto_env : (s.goto st ph).env = s.env := rfl
end

/-! ### `consume` -/

section
@[simp] theorem State.consume_params : (s.consume).params = s.params := rfl
@[simp] theorem State.consume_sch : (s.consume).sch =
    { s.sch with rsp := { s.sch.rsp with valid := false } } := rfl
@[simp] theorem State.consume_dma : (s.consume).dma = s.dma := rfl
@[simp] theorem State.consume_soe : (s.consume).soe = s.soe := rfl
@[simp] theorem State.consume_bufmem : (s.consume).bufmem = s.bufmem := rfl
@[simp] theorem State.consume_faults : (s.consume).faults = s.faults := rfl
@[simp] theorem State.consume_refused : (s.consume).refused = s.refused := rfl
@[simp] theorem State.consume_trace : (s.consume).trace = s.trace := rfl
@[simp] theorem State.consume_console : (s.consume).console = s.console := rfl
@[simp] theorem State.consume_env : (s.consume).env = s.env := rfl
end

/-! ### `setLastBytes` -/

section
variable (b : Word)
@[simp] theorem State.setLastBytes_params : (s.setLastBytes b).params = s.params := rfl
@[simp] theorem State.setLastBytes_sch : (s.setLastBytes b).sch = { s.sch with lastBytes := b } := rfl
@[simp] theorem State.setLastBytes_dma : (s.setLastBytes b).dma = s.dma := rfl
@[simp] theorem State.setLastBytes_soe : (s.setLastBytes b).soe = s.soe := rfl
@[simp] theorem State.setLastBytes_bufmem : (s.setLastBytes b).bufmem = s.bufmem := rfl
@[simp] theorem State.setLastBytes_faults : (s.setLastBytes b).faults = s.faults := rfl
@[simp] theorem State.setLastBytes_refused : (s.setLastBytes b).refused = s.refused := rfl
@[simp] theorem State.setLastBytes_trace : (s.setLastBytes b).trace = s.trace := rfl
@[simp] theorem State.setLastBytes_console : (s.setLastBytes b).console = s.console := rfl
@[simp] theorem State.setLastBytes_env : (s.setLastBytes b).env = s.env := rfl
end

/-! ### `report` -/

section
variable (m : Msg)
@[simp] theorem State.report_params : (s.report m).params = s.params := rfl
@[simp] theorem State.report_sch : (s.report m).sch = { s.sch with msg := m } := rfl
@[simp] theorem State.report_dma : (s.report m).dma = s.dma := rfl
@[simp] theorem State.report_soe : (s.report m).soe = s.soe := rfl
@[simp] theorem State.report_bufmem : (s.report m).bufmem = s.bufmem := rfl
@[simp] theorem State.report_faults : (s.report m).faults = s.faults := rfl
@[simp] theorem State.report_refused : (s.report m).refused = s.refused := rfl
@[simp] theorem State.report_trace : (s.report m).trace = s.trace := rfl
@[simp] theorem State.report_console : (s.report m).console = s.console ++ [m] := rfl
@[simp] theorem State.report_env : (s.report m).env = s.env := rfl
end

/-! ### `emit` -/

section
variable (i : Instr)
@[simp] theorem State.emit_params : (s.emit i).params = s.params := rfl
@[simp] theorem State.emit_sch : (s.emit i).sch = s.sch := rfl
@[simp] theorem State.emit_dma : (s.emit i).dma = s.dma := rfl
@[simp] theorem State.emit_soe : (s.emit i).soe = s.soe := rfl
@[simp] theorem State.emit_bufmem : (s.emit i).bufmem = s.bufmem := rfl
@[simp] theorem State.emit_faults : (s.emit i).faults = s.faults := rfl
@[simp] theorem State.emit_refused : (s.emit i).refused = s.refused := rfl
@[simp] theorem State.emit_trace : (s.emit i).trace = s.trace ++ [encode i] := rfl
@[simp] theorem State.emit_console : (s.emit i).console = s.console := rfl
@[simp] theorem State.emit_env : (s.emit i).env = s.env := rfl
end

/-! ### `setCause` -/

section
variable (c : Cause)
@[simp] theorem State.setCause_params : (s.setCause c).params = s.params := rfl
@[simp] theorem State.setCause_sch : (s.setCause c).sch = { s.sch with cause := c } := rfl
@[simp] theorem State.setCause_dma : (s.setCause c).dma = s.dma := rfl
@[simp] theorem State.setCause_soe : (s.setCause c).soe = s.soe := rfl
@[simp] theorem State.setCause_bufmem : (s.setCause c).bufmem = s.bufmem := rfl
@[simp] theorem State.setCause_faults : (s.setCause c).faults = s.faults := rfl
@[simp] theorem State.setCause_refused : (s.setCause c).refused = s.refused := rfl
@[simp] theorem State.setCause_trace : (s.setCause c).trace = s.trace := rfl
@[simp] theorem State.setCause_console : (s.setCause c).console = s.console := rfl
@[simp] theorem State.setCause_env : (s.setCause c).env = s.env := rfl
end

/-! ### `raise` -/

section
variable (f : Fault)
@[simp] theorem State.raise_params : (s.raise f).params = s.params := rfl
@[simp] theorem State.raise_sch : (s.raise f).sch = s.sch := rfl
@[simp] theorem State.raise_dma : (s.raise f).dma = s.dma := rfl
@[simp] theorem State.raise_soe : (s.raise f).soe = s.soe := rfl
@[simp] theorem State.raise_bufmem : (s.raise f).bufmem = s.bufmem := rfl
@[simp] theorem State.raise_faults : (s.raise f).faults = s.faults ||| f.mask := rfl
@[simp] theorem State.raise_refused : (s.raise f).refused = s.refused := rfl
@[simp] theorem State.raise_trace : (s.raise f).trace = s.trace := rfl
@[simp] theorem State.raise_console : (s.raise f).console = s.console := rfl
@[simp] theorem State.raise_env : (s.raise f).env = s.env := rfl
end

/-! ### `refuse` -/

section
@[simp] theorem State.refuse_params : (s.refuse).params = s.params := rfl
@[simp] theorem State.refuse_sch : (s.refuse).sch = s.sch := rfl
@[simp] theorem State.refuse_dma : (s.refuse).dma = s.dma := rfl
@[simp] theorem State.refuse_soe : (s.refuse).soe = s.soe := rfl
@[simp] theorem State.refuse_bufmem : (s.refuse).bufmem = s.bufmem := rfl
@[simp] theorem State.refuse_faults : (s.refuse).faults = s.faults := rfl
@[simp] theorem State.refuse_refused : (s.refuse).refused = true := rfl
@[simp] theorem State.refuse_trace : (s.refuse).trace = s.trace := rfl
@[simp] theorem State.refuse_console : (s.refuse).console = s.console := rfl
@[simp] theorem State.refuse_env : (s.refuse).env = s.env := rfl
end

/-! ### `trigger` -/

section
variable (i : Buf) (w : Word)
@[simp] theorem State.trigger_params : (s.trigger i w).params = s.params := rfl
@[simp] theorem State.trigger_sch : (s.trigger i w).sch =
    { s.sch.setOwn i true with xferCount := s.sch.xferCount + 1#32, lastWords := w } := rfl
@[simp] theorem State.trigger_soe : (s.trigger i w).soe = s.soe := rfl
@[simp] theorem State.trigger_bufmem : (s.trigger i w).bufmem = s.bufmem := rfl
@[simp] theorem State.trigger_faults : (s.trigger i w).faults = s.faults := rfl
@[simp] theorem State.trigger_refused : (s.trigger i w).refused = s.refused := rfl
@[simp] theorem State.trigger_trace : (s.trigger i w).trace = s.trace := rfl
@[simp] theorem State.trigger_console : (s.trigger i w).console = s.console := rfl
@[simp] theorem State.trigger_env : (s.trigger i w).env = s.env := rfl
end

/-! ### `respond` -/

section
variable (op : SrcOp) (err : Bool) (bytes handle : Word)
@[simp] theorem State.respond_params : (s.respond op err bytes handle).params = s.params := rfl
@[simp] theorem State.respond_sch : (s.respond op err bytes handle).sch =
    { s.sch with
        req := { s.sch.req with valid := false }
        rsp := { valid := true, op := op, err := err, bytes := bytes, handle := handle } } := rfl
@[simp] theorem State.respond_dma : (s.respond op err bytes handle).dma = s.dma := rfl
@[simp] theorem State.respond_soe : (s.respond op err bytes handle).soe = s.soe := rfl
@[simp] theorem State.respond_bufmem : (s.respond op err bytes handle).bufmem = s.bufmem := rfl
@[simp] theorem State.respond_faults : (s.respond op err bytes handle).faults = s.faults := rfl
@[simp] theorem State.respond_refused : (s.respond op err bytes handle).refused = s.refused := rfl
@[simp] theorem State.respond_trace : (s.respond op err bytes handle).trace = s.trace := rfl
@[simp] theorem State.respond_console : (s.respond op err bytes handle).console = s.console := rfl
@[simp] theorem State.respond_env : (s.respond op err bytes handle).env = s.env := rfl
end

/-! ### `endSession` -/

section
variable (c : Cause) (m : Msg)
@[simp] theorem State.endSession_params : (s.endSession c m).params = s.params := rfl
@[simp] theorem State.endSession_sch : (s.endSession c m).sch =
    { s.sch with rsp := { s.sch.rsp with valid := false }, lastBytes := 0#32, cause := c, msg := m } := rfl
@[simp] theorem State.endSession_dma : (s.endSession c m).dma = s.dma := rfl
@[simp] theorem State.endSession_soe : (s.endSession c m).soe = s.soe := rfl
@[simp] theorem State.endSession_bufmem : (s.endSession c m).bufmem = s.bufmem := rfl
@[simp] theorem State.endSession_faults : (s.endSession c m).faults = s.faults := rfl
@[simp] theorem State.endSession_refused : (s.endSession c m).refused = s.refused := rfl
@[simp] theorem State.endSession_trace : (s.endSession c m).trace = s.trace := rfl
@[simp] theorem State.endSession_console : (s.endSession c m).console = s.console ++ [m] := rfl
@[simp] theorem State.endSession_env : (s.endSession c m).env = s.env := rfl
end

/-! ### `moved` -/

section
variable (w : Word) (q : List Word)
@[simp] theorem State.moved_params : (s.moved w q).params = s.params := rfl
@[simp] theorem State.moved_sch : (s.moved w q).sch = s.sch := rfl
@[simp] theorem State.moved_dma : (s.moved w q).dma =
    { s.dma with
        readAddr := s.dma.readAddr + 4#32
        count := s.dma.count - 1#32
        busy := if s.dma.count - 1#32 = 0#32 then false else s.dma.busy
        done := if s.dma.count - 1#32 = 0#32 then true else s.dma.done } := rfl
@[simp] theorem State.moved_soe : (s.moved w q).soe = { s.soe with q := q } := rfl
@[simp] theorem State.moved_bufmem : (s.moved w q).bufmem = s.bufmem := rfl
@[simp] theorem State.moved_faults : (s.moved w q).faults = s.faults := rfl
@[simp] theorem State.moved_refused : (s.moved w q).refused = s.refused := rfl
@[simp] theorem State.moved_trace : (s.moved w q).trace = s.trace ++ [encode (.dmaMove s.dma.buf w)] := rfl
@[simp] theorem State.moved_console : (s.moved w q).console = s.console := rfl
@[simp] theorem State.moved_env : (s.moved w q).env = s.env := rfl
end

/-! ### `emitted` -/

section
variable (w : Word) (q : List Word)
@[simp] theorem State.emitted_params : (s.emitted w q).params = s.params := rfl
@[simp] theorem State.emitted_sch : (s.emitted w q).sch = s.sch := rfl
@[simp] theorem State.emitted_dma : (s.emitted w q).dma = s.dma := rfl
@[simp] theorem State.emitted_soe : (s.emitted w q).soe =
    { q := q,
        line := .level ((shiftBits s.params.shiftOrder w).getLastD false),
        out := s.soe.out ++ shiftBits s.params.shiftOrder w } := rfl
@[simp] theorem State.emitted_bufmem : (s.emitted w q).bufmem = s.bufmem := rfl
@[simp] theorem State.emitted_faults : (s.emitted w q).faults = s.faults := rfl
@[simp] theorem State.emitted_refused : (s.emitted w q).refused = s.refused := rfl
@[simp] theorem State.emitted_trace : (s.emitted w q).trace = s.trace ++ [encode (.soeEmit w)] := rfl
@[simp] theorem State.emitted_console : (s.emitted w q).console = s.console := rfl
@[simp] theorem State.emitted_env : (s.emitted w q).env = s.env := rfl
end

/-! ### `placeRecord` -/

section
variable (r : Record)
@[simp] theorem State.placeRecord_params : (s.placeRecord r).params = s.params := rfl
@[simp] theorem State.placeRecord_sch : (s.placeRecord r).sch = s.sch := rfl
@[simp] theorem State.placeRecord_dma : (s.placeRecord r).dma = s.dma := rfl
@[simp] theorem State.placeRecord_soe : (s.placeRecord r).soe = s.soe := rfl
@[simp] theorem State.placeRecord_bufmem : (s.placeRecord r).bufmem = s.bufmem := rfl
@[simp] theorem State.placeRecord_faults : (s.placeRecord r).faults = s.faults := rfl
@[simp] theorem State.placeRecord_refused : (s.placeRecord r).refused = s.refused := rfl
@[simp] theorem State.placeRecord_trace : (s.placeRecord r).trace = s.trace := rfl
@[simp] theorem State.placeRecord_console : (s.placeRecord r).console = s.console := rfl
@[simp] theorem State.placeRecord_env : (s.placeRecord r).env =
    { s.env with program := .action r :: s.env.program } := rfl
end

/-! ### Taking a turn off the schedule -/

@[simp] theorem State.afterTurn_params : s.afterTurn.params = s.params := by unfold State.afterTurn; split <;> rfl
@[simp] theorem State.afterTurn_sch : s.afterTurn.sch = s.sch := by unfold State.afterTurn; split <;> rfl
@[simp] theorem State.afterTurn_dma : s.afterTurn.dma = s.dma := by unfold State.afterTurn; split <;> rfl
@[simp] theorem State.afterTurn_soe : s.afterTurn.soe = s.soe := by unfold State.afterTurn; split <;> rfl
@[simp] theorem State.afterTurn_bufmem : s.afterTurn.bufmem = s.bufmem := by unfold State.afterTurn; split <;> rfl
@[simp] theorem State.afterTurn_faults : s.afterTurn.faults = s.faults := by unfold State.afterTurn; split <;> rfl
@[simp] theorem State.afterTurn_refused : s.afterTurn.refused = s.refused := by unfold State.afterTurn; split <;> rfl
@[simp] theorem State.afterTurn_trace : s.afterTurn.trace = s.trace := by unfold State.afterTurn; split <;> rfl
@[simp] theorem State.afterTurn_console : s.afterTurn.console = s.console := by unfold State.afterTurn; split <;> rfl

end Sys2Proof.Machine
end

