-- ==== Sys2Proof/Laws/Memory.lean ====
section
/-! SUPPORT. The laws of the buffer memory (20_memory.md): a read after a write, the canonical form, and what writing a
block of bytes does. -/

namespace Sys2Proof.Machine

theorem Memory.read_write_same (m : Memory) (a : Nat) (v : Byte) : (m.write a v).read a = some v := by
  induction m with
  | nil => simp [Memory.write, Memory.read]
  | cons c m ih =>
    unfold Memory.write
    split
    · simp [Memory.read]
    · split
      · simp [Memory.read]
      · rename_i h1 h2
        simp [Memory.read, ih, Ne.symm h2]

theorem Memory.read_write_other (m : Memory) (a b : Nat) (v : Byte) (h : b ≠ a) :
    (m.write a v).read b = m.read b := by
  induction m with
  | nil => simp [Memory.write, Memory.read, Ne.symm h]
  | cons c m ih =>
    unfold Memory.write
    split
    · simp [Memory.read, Ne.symm h]
    · split
      · rename_i h1 h2
        subst h2
        simp [Memory.read, Ne.symm h]
      · simp [Memory.read, ih]

theorem Memory.mem_write (m : Memory) (a : Nat) (v : Byte) (c : Host.Cell) (h : c ∈ m.write a v) :
    c = (a, v) ∨ c ∈ m := by
  induction m with
  | nil => simpa [Memory.write] using h
  | cons d m ih =>
    unfold Memory.write at h
    split at h
    · simpa using h
    · split at h
      · rcases List.mem_cons.1 h with h | h
        · exact .inl h
        · exact .inr (List.mem_cons_of_mem _ h)
      · rcases List.mem_cons.1 h with h | h
        · exact .inr (h ▸ List.mem_cons_self)
        · exact (ih h).imp_right (List.mem_cons_of_mem _)

/-- The empty memory of reset is canonical. -/
theorem Memory.wf_nil : Memory.wf [] := List.Pairwise.nil

/-- Writing one byte keeps the canonical form. -/
theorem Memory.wf_write (m : Memory) (a : Nat) (v : Byte) (h : m.wf) : (m.write a v).wf := by
  induction m with
  | nil => simp [Memory.write, Memory.wf]
  | cons c m ih =>
    have hc := List.pairwise_cons.1 h
    unfold Memory.write
    split
    · rename_i h1
      refine List.pairwise_cons.2 ⟨fun x hx => ?_, h⟩
      rcases List.mem_cons.1 hx with rfl | hx
      · exact h1
      · exact Nat.lt_trans h1 (hc.1 x hx)
    · split
      · rename_i h1 h2
        exact List.pairwise_cons.2 ⟨fun x hx => by simpa [h2] using hc.1 x hx, hc.2⟩
      · rename_i h1 h2
        refine List.pairwise_cons.2 ⟨fun x hx => ?_, ih hc.2⟩
        rcases Memory.mem_write _ _ _ _ hx with rfl | hx
        · exact Nat.lt_of_le_of_ne (Nat.not_lt.1 h1) (Ne.symm h2)
        · exact hc.1 x hx

/-- What one `MemWrite` can do (R64). -/
theorem memWrite_ok {p : Params} {m m' : Memory} {a : Nat} {v : Byte} (h : memWrite p m a v = .ok m') :
    inBuffer p a 1 = true ∧ m' = m.write a v := by
  unfold memWrite at h
  split at h
  · cases h
  · rename_i hb
    exact ⟨by simpa using hb, by injection h with h; exact h.symm⟩

/-- The only fault of a block write is `BUS_RANGE` (R207). -/
theorem memWriteAll_error {p : Params} {d : List Byte} {m : Memory} {a : Nat} {f : Fault}
    (h : memWriteAll p m a d = .error f) : f = .busRange := by
  induction d generalizing m a with
  | nil => simp [memWriteAll] at h
  | cons v d ih =>
    unfold memWriteAll at h
    split at h
    · rename_i g hg
      unfold memWrite at hg
      split at hg
      · injection hg with hg
        injection h with h
        rw [← h, ← hg]
      · cases hg
    · exact ih h

/-- A block write inside a buffer succeeds (R64). -/
theorem memWriteAll_succeeds {p : Params} (d : List Byte) (m : Memory) (a : Nat)
    (h : ∀ k < d.length, inBuffer p (a + k) 1 = true) : ∃ m', memWriteAll p m a d = .ok m' := by
  induction d generalizing m a with
  | nil => exact ⟨m, rfl⟩
  | cons v d ih =>
    have h0 : inBuffer p a 1 = true := by simpa using h 0 (by simp)
    obtain ⟨m', hm⟩ := ih (m.write a v) (a + 1) fun k hk => by
      have := h (k + 1) (by simpa using hk)
      rwa [show a + (k + 1) = a + 1 + k by omega] at this
    exact ⟨m', by simp [memWriteAll, memWrite, h0, hm]⟩

/-- A block write keeps the canonical form. -/
theorem memWriteAll_wf {p : Params} {d : List Byte} {m m' : Memory} {a : Nat} (h : memWriteAll p m a d = .ok m')
    (hw : m.wf) : m'.wf := by
  induction d generalizing m a with
  | nil =>
    injection h with h
    exact h ▸ hw
  | cons v d ih =>
    unfold memWriteAll at h
    split at h
    · cases h
    · rename_i m1 h1
      exact ih h ((memWrite_ok h1).2 ▸ Memory.wf_write m a v hw)

/-- A block write lists only bytes of the buffer regions. -/
theorem memWriteAll_inBuffer {p : Params} {d : List Byte} {m m' : Memory} {a : Nat} (h : memWriteAll p m a d = .ok m')
    (hw : ∀ c ∈ m, inBuffer p c.1 1 = true) : ∀ c ∈ m', inBuffer p c.1 1 = true := by
  induction d generalizing m a with
  | nil =>
    injection h with h
    exact h ▸ hw
  | cons v d ih =>
    unfold memWriteAll at h
    split at h
    · cases h
    · rename_i m1 h1
      obtain ⟨hb, rfl⟩ := memWrite_ok h1
      refine ih h fun c hc => ?_
      rcases Memory.mem_write _ _ _ _ hc with rfl | hc
      · exact hb
      · exact hw c hc

/-- Outside the block nothing changes. -/
theorem memWriteAll_read_outside {p : Params} {d : List Byte} {m m' : Memory} {a : Nat}
    (h : memWriteAll p m a d = .ok m') (b : Nat) (hb : b < a ∨ a + d.length ≤ b) : m'.read b = m.read b := by
  induction d generalizing m a with
  | nil =>
    injection h with h
    rw [← h]
  | cons v d ih =>
    unfold memWriteAll at h
    split at h
    · cases h
    · rename_i m1 h1
      obtain ⟨_, rfl⟩ := memWrite_ok h1
      simp only [List.length_cons] at hb
      rw [ih h (by omega), Memory.read_write_other _ _ _ _ (by omega)]

/-- Inside the block byte `k` is the `k`-th byte written. -/
theorem memWriteAll_read_inside {p : Params} {d : List Byte} {m m' : Memory} {a : Nat}
    (h : memWriteAll p m a d = .ok m') (k : Nat) (hk : k < d.length) : m'.read (a + k) = d[k]? := by
  induction d generalizing m a k with
  | nil => simp at hk
  | cons v d ih =>
    unfold memWriteAll at h
    split at h
    · cases h
    · rename_i m1 h1
      obtain ⟨_, rfl⟩ := memWrite_ok h1
      cases k with
      | zero =>
        rw [memWriteAll_read_outside h _ (by omega)]
        simp [Memory.read_write_same]
      | succ k =>
        have := ih h k (by simpa using hk)
        rw [show a + (k + 1) = a + 1 + k by omega, this]
        simp

/-- What `MemRead` returns when it succeeds (R63). -/
theorem memRead_ok {p : Params} {m : Memory} {addr w : Word} (h : memRead p m addr = .ok w) :
    addr.toNat % 4 = 0 ∧ inBuffer p addr.toNat 4 = true ∧
      ∃ b0 b1 b2 b3, m.read addr.toNat = some b0 ∧ m.read (addr.toNat + 1) = some b1 ∧
        m.read (addr.toNat + 2) = some b2 ∧ m.read (addr.toNat + 3) = some b3 ∧ w = b3 ++ b2 ++ b1 ++ b0 := by
  unfold memRead at h
  split at h
  · cases h
  · split at h
    · cases h
    · rename_i h1 h2
      split at h
      · rename_i b0 b1 b2 b3 e0 e1 e2 e3
        injection h with h
        exact ⟨by simpa using h1, by simpa using h2, b0, b1, b2, b3, e0, e1, e2, e3, h.symm⟩
      · cases h

/-- An aligned read inside a buffer of written bytes succeeds. -/
theorem memRead_succeeds {p : Params} {m : Memory} {addr : Word} (h1 : addr.toNat % 4 = 0)
    (h2 : inBuffer p addr.toNat 4 = true) (h3 : ∀ k < 4, (m.read (addr.toNat + k)).isSome = true) :
    ∃ w, memRead p m addr = .ok w := by
  obtain ⟨b0, e0⟩ := Option.isSome_iff_exists.1 (h3 0 (by omega))
  obtain ⟨b1, e1⟩ := Option.isSome_iff_exists.1 (h3 1 (by omega))
  obtain ⟨b2, e2⟩ := Option.isSome_iff_exists.1 (h3 2 (by omega))
  obtain ⟨b3, e3⟩ := Option.isSome_iff_exists.1 (h3 3 (by omega))
  rw [Nat.add_zero] at e0
  exact ⟨b3 ++ b2 ++ b1 ++ b0, by simp [memRead, h1, h2, e0, e1, e2, e3]⟩

end Sys2Proof.Machine
end

