-- ==== Sys2Proof/Laws/Ops.lean ====
section
/-! SUPPORT. What the shared operations can do: one inversion lemma per operation, cited instead of unfolding it. -/

namespace Sys2Proof.Machine

variable {s t : State}

/-! ### The shape of a step -/

/-- R208: whatever the effect, the machine goes on. -/
theorem settle_next (s : State) (r : Except Fault State) : ∃ t, settle s r = .next t := by
  cases r with
  | ok t => exact ⟨t, rfl⟩
  | error f => exact ⟨s.raise f, rfl⟩

theorem settle_cases {r : Except Fault State} (h : settle s r = .next t) :
    r = .ok t ∨ ∃ f, r = .error f ∧ t = s.raise f := by
  cases r with
  | ok u => exact .inl (by injection h with h; rw [h])
  | error f => exact .inr ⟨f, rfl, by injection h with h; exact h.symm⟩

/-- R12: a step with a guard holds, faults or takes its effect. -/
theorem attempt_cases {c : Prop} [Decidable c] {r : Except Fault State} (h : attempt s c r = .next t) :
    (¬c ∧ t = s) ∨ (c ∧ r = .ok t) ∨ (c ∧ ∃ f, r = .error f ∧ t = s.raise f) := by
  unfold attempt at h
  split at h
  · rename_i hc
    rcases settle_cases h with h | h
    · exact .inr (.inl ⟨hc, h⟩)
    · exact .inr (.inr ⟨hc, h⟩)
  · rename_i hc
    exact .inl ⟨hc, by injection h with h; exact h.symm⟩

theorem attempt_next (s : State) (c : Prop) [Decidable c] (r : Except Fault State) : ∃ t, attempt s c r = .next t := by
  unfold attempt
  split
  · exact settle_next s r
  · exact ⟨s, rfl⟩

theorem attempt_ok {c : Prop} [Decidable c] (hc : c) : attempt s c (.ok t) = .next t := by simp [attempt, hc, settle]

theorem attempt_error {c : Prop} [Decidable c] (hc : c) (f : Fault) : attempt s c (.error f) = .next (s.raise f) := by
  simp [attempt, hc, settle]

theorem attempt_hold {c : Prop} [Decidable c] (hc : ¬c) (r : Except Fault State) : attempt s c r = .next s := by
  simp [attempt, hc]

/-- R12, R22: a scheduler step raises `BAD_STATE`, holds, faults or takes its effect. -/
theorem schStep_cases {c : Prop} [Decidable c] {r : Except Fault State} (h : schStep s c r = .next t) :
    (s.sch.sound = false ∧ t = s.raise .badState) ∨ (s.sch.sound = true ∧ ¬c ∧ t = s) ∨
      (s.sch.sound = true ∧ c ∧ r = .ok t) ∨ (s.sch.sound = true ∧ c ∧ ∃ f, r = .error f ∧ t = s.raise f) := by
  unfold schStep at h
  split at h
  · rename_i hs
    exact .inl ⟨hs, by injection h with h; exact h.symm⟩
  · rename_i hs
    have hs : s.sch.sound = true := by simpa using hs
    rcases attempt_cases h with h | h | h
    · exact .inr (.inl ⟨hs, h⟩)
    · exact .inr (.inr (.inl ⟨hs, h⟩))
    · exact .inr (.inr (.inr ⟨hs, h⟩))

theorem schStep_next (s : State) (c : Prop) [Decidable c] (r : Except Fault State) : ∃ t, schStep s c r = .next t := by
  unfold schStep
  split
  · exact ⟨_, rfl⟩
  · exact attempt_next s c r

theorem schStep_ok {c : Prop} [Decidable c] (hs : s.sch.sound = true) (hc : c) : schStep s c (.ok t) = .next t := by
  simp [schStep, hs, attempt_ok hc]

theorem schStep_error {c : Prop} [Decidable c] (hs : s.sch.sound = true) (hc : c) (f : Fault) :
    schStep s c (.error f) = .next (s.raise f) := by
  simp [schStep, hs, attempt_error hc]

theorem schStep_hold {c : Prop} [Decidable c] (hs : s.sch.sound = true) (hc : ¬c) (r : Except Fault State) :
    schStep s c r = .next s := by
  simp [schStep, hs, attempt_hold hc]

theorem schStep_badState {c : Prop} [Decidable c] (hs : s.sch.sound = false) (r : Except Fault State) :
    schStep s c r = .next (s.raise .badState) := by
  simp [schStep, hs]

/-! ### `Except.map` as the effects use it -/

theorem map_eq_ok {f : State → State} {r : Except Fault State} (h : r.map f = .ok t) : ∃ u, r = .ok u ∧ t = f u := by
  cases r with
  | ok u => exact ⟨u, rfl, by injection h with h; exact h.symm⟩
  | error e => cases h

@[simp] theorem map_ok {α β : Type} (f : α → β) (a : α) : (Except.ok a : Except Fault α).map f = .ok (f a) := rfl
@[simp] theorem map_error {α β : Type} (f : α → β) (e : Fault) : (Except.error e : Except Fault α).map f = .error e := rfl

/-! ### `Issue` -/

/-- R131: when `Issue` succeeds and what it leaves. -/
theorem issue_ok {i : Buf} {w : Word} (h : issue i w s = .ok t) :
    s.dma.busy = false ∧ w ≠ 0#32 ∧ ¬wordCount s.params.bufferSize < w ∧ s.sch.own i = false ∧ t = s.trigger i w := by
  unfold issue at h
  split at h
  · cases h
  · split at h
    · cases h
    · split at h
      · cases h
      · split at h
        · cases h
        · rename_i h1 h2 h3 h4
          exact ⟨by simpa using h1, h2, h3, by simpa using h4, by injection h with h; exact h.symm⟩

/-- R131: the four checks passed, `Issue` succeeds. -/
theorem issue_succeeds {i : Buf} {w : Word} (h1 : s.dma.busy = false) (h2 : w ≠ 0#32)
    (h3 : ¬wordCount s.params.bufferSize < w) (h4 : s.sch.own i = false) : issue i w s = .ok (s.trigger i w) := by
  simp [issue, h1, h2, h3, h4]

/-! ### `SrcRequest` -/

/-- R190: when `SrcRequest` succeeds and what it leaves. -/
theorem srcRequest_ok {op : SrcOp} {f : Buf} {len : Word} (h : srcRequest op f len s = .ok t) :
    s.sch.req.valid = false ∧ s.sch.rsp.valid = false ∧ (op = .read → s.sch.own f = false) ∧
      t = { s with sch := { s.sch with req := s.request op f len } } := by
  unfold srcRequest at h
  split at h
  · cases h
  · split at h
    · cases h
    · rename_i h1 h2
      rw [not_or, Bool.not_eq_true, Bool.not_eq_true] at h1
      rw [not_and, Bool.not_eq_true] at h2
      exact ⟨h1.1, h1.2, h2, by injection h with h; exact h.symm⟩

/-- R190: the two checks passed, `SrcRequest` succeeds. -/
theorem srcRequest_succeeds {op : SrcOp} {f : Buf} {len : Word} (h1 : s.sch.req.valid = false)
    (h2 : s.sch.rsp.valid = false) (h3 : op = .read → s.sch.own f = false) :
    srcRequest op f len s = .ok { s with sch := { s.sch with req := s.request op f len } } := by
  have : ¬(op = .read ∧ s.sch.own f = true) := fun h => by simp [h3 h.1] at h
  simp only [srcRequest, h1, h2, this, if_false, Bool.false_eq_true, or_self]

/-! ### Cause entry -/

/-- R201: everything cause entry does, as one update. -/
theorem State.endSession_eq (s : State) (c : Cause) (m : Msg) :
    s.endSession c m =
      { s with
        sch := { s.sch with rsp := { s.sch.rsp with valid := false }, lastBytes := 0#32, cause := c, msg := m }
        console := s.console ++ [m] } := by
  simp [State.endSession, State.consume, State.setLastBytes, State.setCause, State.report]

/-! ### The queue -/

theorem queuePush_ok {p : Params} {q q' : List Word} {w : Word} (h : queuePush p q w = .ok q') :
    q.length < p.queueDepth ∧ q' = q ++ [w] := by
  unfold queuePush at h
  split at h
  · cases h
  · rename_i hq
    exact ⟨Nat.not_le.1 hq, by injection h with h; exact h.symm⟩

theorem queuePush_succeeds {p : Params} {q : List Word} {w : Word} (h : q.length < p.queueDepth) :
    queuePush p q w = .ok (q ++ [w]) := by
  simp [queuePush, Nat.not_le.2 h]

/-! ### The source's data bytes -/

@[simp] theorem Env.length_bytes (e : Env) (n : Nat) : (e.bytes n).length = n := by
  simp [Env.bytes, List.length_take]
  omega

end Sys2Proof.Machine
end

