-- ==== Sys2Proof/Laws/Exec.lean ====
section
/-! SUPPORT. What `exec` can do, said once: it leaves the state, refuses, raises one fault, or takes the action's effect,
which `Effect` writes out as an update of the state. Every claim over all actions starts from `exec_cases`. -/

namespace Sys2Proof.Machine

/-- The scheduler's registers after a terminal transition that sends `close` (R201). -/
def Sch.closing (c : Sch) (cause : Cause) (m : Msg) (st : St) : Sch :=
  { c with
    st := st, ph := .close, lastBytes := 0#32, cause := cause, msg := m
    rsp := { c.rsp with valid := false }
    req := { valid := true, op := .close, buf := .a, len := 0#32, handle := c.handle, name := none } }

/-- The scheduler's registers after the answer to a read has been consumed and the read of a full buffer `f` requested. -/
def Sch.rereading (c : Sch) (f : Buf) (len : Word) (st : St) (ph : Ph) : Sch :=
  { c with
    st := st, ph := ph, lastBytes := c.rsp.bytes
    rsp := { c.rsp with valid := false }
    req := { valid := true, op := .read, buf := f, len := len, handle := c.handle, name := none } }

/-- The effect of an action that neither holds nor is refused nor faults. -/
def Effect : Instr → State → State → Prop
  | .startOpen, s, t =>
    canStartOpen s ∧
      t = { s with
            sch := { s.sch with
                      ph := .opn, startPend := false
                      req := { valid := true, op := .opn, buf := .a, len := 0#32, handle := 0#32
                               name := some s.params.sourceName } }
            trace := s.trace ++ [encode .startOpen] }
  | .openOk _, s, t =>
    canOpenOk s ∧ s.sch.req.valid = false ∧ s.sch.ownA = false ∧
      t = { s with
            sch := { s.sch with
                      st := .idle, ph := .prime, handle := s.sch.rsp.handle, hvalid := true
                      rsp := { s.sch.rsp with valid := false }
                      req := { valid := true, op := .read, buf := .a, len := s.params.bufferSize
                               handle := s.sch.rsp.handle, name := none } }
            trace := s.trace ++ [encode (.openOk s.params.bufferSize)] }
  | .openFail, s, t =>
    canOpenFail s ∧
      t = { s with
            sch := { s.sch with
                      st := .halted, ph := .stop, lastBytes := 0#32, cause := .sourceOpenError, msg := .openFail
                      rsp := { s.sch.rsp with valid := false } }
            console := s.console ++ [.openFail]
            trace := s.trace ++ [encode .openFail] }
  | .primeErr, s, t =>
    canPrimeErr s ∧ s.sch.req.valid = false ∧
      t = { s with
            sch := s.sch.closing .sourceReadError .readErr .halted
            console := s.console ++ [.readErr]
            trace := s.trace ++ [encode .primeErr] }
  | .primeEmpty, s, t =>
    canPrimeEmpty s ∧ s.sch.req.valid = false ∧
      t = { s with
            sch := s.sch.closing .emptySource .empty .halted
            console := s.console ++ [.empty]
            trace := s.trace ++ [encode .primeEmpty] }
  | .primeShort _, s, t =>
    canPrimeShort s ∧ s.sch.req.valid = false ∧ s.sch.ownA = false ∧
      t = { s with
            sch := s.sch.rereading .a s.params.bufferSize .idle .prime
            trace := s.trace ++ [encode (.primeShort s.sch.rsp.bytes)] }
  | .primeIssue _, s, t =>
    canPrimeIssue s ∧ s.dma.busy = false ∧ wordCount s.sch.rsp.bytes ≠ 0#32 ∧
      ¬wordCount s.params.bufferSize < wordCount s.sch.rsp.bytes ∧ s.sch.ownA = false ∧
      t = { s with
            sch := { s.sch with
                      st := .primed, ph := .issued, active := .a, ownA := true, lastBytes := s.sch.rsp.bytes
                      rsp := { s.sch.rsp with valid := false }
                      xferCount := s.sch.xferCount + 1#32, lastWords := wordCount s.sch.rsp.bytes }
            dma := { readAddr := s.params.baseA, writeAddr := s.params.txfAddr, count := wordCount s.sch.rsp.bytes
                     buf := .a, incrRead := true, incrWrite := false, dataSize := 2#2, busy := true, done := false }
            trace := s.trace ++ [encode (.primeIssue (wordCount s.sch.rsp.bytes))] }
  | .fillReq _ _, s, t =>
    canFillReq s ∧ s.sch.own s.fillable = false ∧
      t = { s with
            sch := { s.sch with
                      st := .streaming, ph := .fill
                      req := { valid := true, op := .read, buf := s.fillable, len := s.params.bufferSize
                               handle := s.sch.handle, name := none } }
            trace := s.trace ++ [encode (.fillReq s.fillable s.params.bufferSize)] }
  | .fillErr _, s, t =>
    canFillErr s ∧ s.sch.req.valid = false ∧
      t = { s with
            sch := s.sch.closing .sourceReadError .readErr .halted
            console := s.console ++ [.readErr]
            trace := s.trace ++ [encode (.fillErr s.fillable)] }
  | .fillEos _, s, t =>
    canFillEos s ∧ s.sch.req.valid = false ∧
      t = { s with
            sch := s.sch.closing .endOfSource .eos .done
            console := s.console ++ [.eos]
            trace := s.trace ++ [encode (.fillEos s.fillable)] }
  | .fillShort _ _, s, t =>
    canFillShort s ∧ s.sch.req.valid = false ∧ s.sch.own s.fillable = false ∧
      t = { s with
            sch := s.sch.rereading s.fillable s.params.bufferSize .streaming .fill
            trace := s.trace ++ [encode (.fillShort s.fillable s.sch.rsp.bytes)] }
  | .fillOk _ _, s, t =>
    canFillOk s ∧
      t = { s with
            sch := { s.sch with
                      st := .streaming, ph := .wait, lastBytes := s.sch.rsp.bytes
                      rsp := { s.sch.rsp with valid := false }, pendWords := wordCount s.sch.rsp.bytes }
            trace := s.trace ++ [encode (.fillOk s.fillable s.sch.rsp.bytes)] }
  | .waitIssue _ _, s, t =>
    canWaitIssue s ∧ s.sch.pendWords ≠ 0#32 ∧ ¬wordCount s.params.bufferSize < s.sch.pendWords ∧
      s.sch.own s.fillable = false ∧
      t = { s with
            sch := { (s.sch.setOwn s.sch.active false).setOwn s.fillable true with
                      st := .streaming, ph := .issued, active := s.fillable, pendWords := 0#32
                      xferCount := s.sch.xferCount + 1#32, lastWords := s.sch.pendWords }
            dma := { readAddr := bufBase s.params.toParams s.fillable, writeAddr := s.params.txfAddr
                     count := s.sch.pendWords, buf := s.fillable, incrRead := true, incrWrite := false
                     dataSize := 2#2, busy := true, done := false }
            trace := s.trace ++ [encode (.waitIssue s.fillable s.sch.pendWords)] }
  | .closeDone, s, t =>
    canCloseDone s ∧
      t = { s with
            sch := { s.sch with ph := .stop, hvalid := false, rsp := { s.sch.rsp with valid := false } }
            trace := s.trace ++ [encode .closeDone] }
  | .hostWrite ofs v, s, t =>
    offsetInside ofs = true ∧ offsetAligned ofs = true ∧ t = (s.hostStore ofs v).emit (.hostWrite ofs v)
  | .hostRead ofs _, s, t =>
    offsetInside ofs = true ∧ offsetAligned ofs = true ∧ t = s.emit (.hostRead ofs (s.hostRegister ofs))
  | .dmaMove _ _, s, t =>
    canDmaMove s ∧ ∃ w, memRead s.params.toParams s.bufmem s.dma.readAddr = .ok w ∧ t = s.moved w (s.soe.q ++ [w])
  | .soeEmit _, s, t => ∃ w q, s.soe.q = w :: q ∧ t = s.emitted w q
  | .srcOpenRsp err h, s, t =>
    canRespond s .opn ∧
      t = (s.respond .opn err 0#32 (if err = true then 0#32 else h)).emit
            (.srcOpenRsp err (if err = true then 0#32 else h))
  | .srcReadRsp _ err b, s, t =>
    canRespond s .read ∧ ¬s.sch.req.len < b ∧ ¬(err = true ∧ b ≠ 0#32) ∧ s.sch.own s.sch.req.buf = false ∧
      ∃ m, memWriteAll s.params.toParams s.bufmem (bufBase s.params.toParams s.sch.req.buf).toNat
            (s.env.bytes b.toNat) = .ok m ∧
        t = (({ s with bufmem := m, env := s.env.afterBytes b.toNat } : State).respond .read err b 0#32).emit
              (.srcReadRsp s.sch.req.buf err b)
  | .srcCloseRsp, s, t => canRespond s .close ∧ t = (s.respond .close false 0#32 0#32).emit .srcCloseRsp
  | .reset, s, t => t = (State.cleared s.params s.env).emit .reset

variable {s t : State}

theorem execStartOpen_cases (h : execStartOpen s = .next t) :
    t = s ∨ (∃ f, t = s.raise f) ∨ Effect .startOpen s t := by
  rcases schStep_cases h with ⟨_, h⟩ | ⟨_, _, h⟩ | ⟨_, hc, h⟩ | ⟨_, _, f, _, h⟩
  · exact .inr (.inl ⟨_, h⟩)
  · exact .inl h
  · obtain ⟨u, hu, rfl⟩ := map_eq_ok h
    obtain ⟨_, _, _, rfl⟩ := srcRequest_ok hu
    refine .inr (.inr ⟨hc, ?_⟩)
    simp [State.goto, State.emit, State.request, hc.1]
  · exact .inr (.inl ⟨f, h⟩)

theorem execOpenOk_cases (x : Word) (h : execOpenOk s = .next t) :
    t = s ∨ (∃ f, t = s.raise f) ∨ Effect (.openOk x) s t := by
  rcases schStep_cases h with ⟨_, h⟩ | ⟨_, _, h⟩ | ⟨_, hc, h⟩ | ⟨_, _, f, _, h⟩
  · exact .inr (.inl ⟨_, h⟩)
  · exact .inl h
  · obtain ⟨u, hu, rfl⟩ := map_eq_ok h
    obtain ⟨h1, _, h2, rfl⟩ := srcRequest_ok hu
    exact .inr (.inr ⟨hc, h1, h2 rfl, rfl⟩)
  · exact .inr (.inl ⟨f, h⟩)

theorem execOpenFail_cases (h : execOpenFail s = .next t) :
    t = s ∨ (∃ f, t = s.raise f) ∨ Effect .openFail s t := by
  rcases schStep_cases h with ⟨_, h⟩ | ⟨_, _, h⟩ | ⟨_, hc, h⟩ | ⟨_, _, f, _, h⟩
  · exact .inr (.inl ⟨_, h⟩)
  · exact .inl h
  · injection h with h
    refine .inr (.inr ⟨hc, ?_⟩)
    simp [← h, State.endSession_eq, State.goto, State.emit]
  · exact .inr (.inl ⟨f, h⟩)

/-- R201: what a terminal transition with an open handle does when it succeeds. -/
theorem endAndClose_ok {c : Cause} {m : Msg} {st : St} {i : Instr} (h : endAndClose c m st i s = .ok t) :
    s.sch.req.valid = false ∧
      t = { s with
            sch := s.sch.closing c m st
            console := s.console ++ [m]
            trace := s.trace ++ [encode i] } := by
  obtain ⟨u, hu, rfl⟩ := map_eq_ok h
  obtain ⟨h1, _, _, rfl⟩ := srcRequest_ok hu
  refine ⟨h1, ?_⟩
  simp [State.endSession_eq, State.goto, State.emit, State.request, Sch.closing]

theorem execPrimeErr_cases (h : execPrimeErr s = .next t) :
    t = s ∨ (∃ f, t = s.raise f) ∨ Effect .primeErr s t := by
  rcases schStep_cases h with ⟨_, h⟩ | ⟨_, _, h⟩ | ⟨_, hc, h⟩ | ⟨_, _, f, _, h⟩
  · exact .inr (.inl ⟨_, h⟩)
  · exact .inl h
  · exact .inr (.inr ⟨hc, endAndClose_ok h⟩)
  · exact .inr (.inl ⟨f, h⟩)

theorem execPrimeEmpty_cases (h : execPrimeEmpty s = .next t) :
    t = s ∨ (∃ f, t = s.raise f) ∨ Effect .primeEmpty s t := by
  rcases schStep_cases h with ⟨_, h⟩ | ⟨_, _, h⟩ | ⟨_, hc, h⟩ | ⟨_, _, f, _, h⟩
  · exact .inr (.inl ⟨_, h⟩)
  · exact .inl h
  · exact .inr (.inr ⟨hc, endAndClose_ok h⟩)
  · exact .inr (.inl ⟨f, h⟩)

theorem execPrimeShort_cases (x : Word) (h : execPrimeShort s = .next t) :
    t = s ∨ (∃ f, t = s.raise f) ∨ Effect (.primeShort x) s t := by
  rcases schStep_cases h with ⟨_, h⟩ | ⟨_, _, h⟩ | ⟨_, hc, h⟩ | ⟨_, _, f, _, h⟩
  · exact .inr (.inl ⟨_, h⟩)
  · exact .inl h
  · obtain ⟨u, hu, rfl⟩ := map_eq_ok h
    obtain ⟨h1, _, h2, rfl⟩ := srcRequest_ok hu
    exact .inr (.inr ⟨hc, h1, h2 rfl, rfl⟩)
  · exact .inr (.inl ⟨f, h⟩)

theorem execPrimeIssue_cases (x : Word) (h : execPrimeIssue s = .next t) :
    t = s ∨ (∃ f, t = s.raise f) ∨ Effect (.primeIssue x) s t := by
  rcases schStep_cases h with ⟨_, h⟩ | ⟨_, _, h⟩ | ⟨_, hc, h⟩ | ⟨_, _, f, _, h⟩
  · exact .inr (.inl ⟨_, h⟩)
  · exact .inl h
  · obtain ⟨u, hu, rfl⟩ := map_eq_ok h
    obtain ⟨h1, h2, h3, h4, rfl⟩ := issue_ok hu
    refine .inr (.inr ⟨hc, h1, h2, h3, h4, ?_⟩)
    simp [State.goto, State.emit, State.consume, State.setLastBytes, State.trigger, Dma.load_descriptor, bufBase,
      Sch.setOwn]
  · exact .inr (.inl ⟨f, h⟩)

theorem execFillReq_cases (x : Buf) (y : Word) (h : execFillReq s = .next t) :
    t = s ∨ (∃ f, t = s.raise f) ∨ Effect (.fillReq x y) s t := by
  rcases schStep_cases h with ⟨_, h⟩ | ⟨_, _, h⟩ | ⟨_, hc, h⟩ | ⟨_, _, f, _, h⟩
  · exact .inr (.inl ⟨_, h⟩)
  · exact .inl h
  · obtain ⟨u, hu, rfl⟩ := map_eq_ok h
    obtain ⟨_, _, h2, rfl⟩ := srcRequest_ok hu
    exact .inr (.inr ⟨hc, h2 rfl, rfl⟩)
  · exact .inr (.inl ⟨f, h⟩)

theorem execFillErr_cases (x : Buf) (h : execFillErr s = .next t) :
    t = s ∨ (∃ f, t = s.raise f) ∨ Effect (.fillErr x) s t := by
  rcases schStep_cases h with ⟨_, h⟩ | ⟨_, _, h⟩ | ⟨_, hc, h⟩ | ⟨_, _, f, _, h⟩
  · exact .inr (.inl ⟨_, h⟩)
  · exact .inl h
  · exact .inr (.inr ⟨hc, endAndClose_ok h⟩)
  · exact .inr (.inl ⟨f, h⟩)

theorem execFillEos_cases (x : Buf) (h : execFillEos s = .next t) :
    t = s ∨ (∃ f, t = s.raise f) ∨ Effect (.fillEos x) s t := by
  rcases schStep_cases h with ⟨_, h⟩ | ⟨_, _, h⟩ | ⟨_, hc, h⟩ | ⟨_, _, f, _, h⟩
  · exact .inr (.inl ⟨_, h⟩)
  · exact .inl h
  · exact .inr (.inr ⟨hc, endAndClose_ok h⟩)
  · exact .inr (.inl ⟨f, h⟩)

theorem execFillShort_cases (x : Buf) (y : Word) (h : execFillShort s = .next t) :
    t = s ∨ (∃ f, t = s.raise f) ∨ Effect (.fillShort x y) s t := by
  rcases schStep_cases h with ⟨_, h⟩ | ⟨_, _, h⟩ | ⟨_, hc, h⟩ | ⟨_, _, f, _, h⟩
  · exact .inr (.inl ⟨_, h⟩)
  · exact .inl h
  · obtain ⟨u, hu, rfl⟩ := map_eq_ok h
    obtain ⟨h1, _, h2, rfl⟩ := srcRequest_ok hu
    exact .inr (.inr ⟨hc, h1, h2 rfl, rfl⟩)
  · exact .inr (.inl ⟨f, h⟩)

theorem execFillOk_cases (x : Buf) (y : Word) (h : execFillOk s = .next t) :
    t = s ∨ (∃ f, t = s.raise f) ∨ Effect (.fillOk x y) s t := by
  rcases schStep_cases h with ⟨_, h⟩ | ⟨_, _, h⟩ | ⟨_, hc, h⟩ | ⟨_, _, f, _, h⟩
  · exact .inr (.inl ⟨_, h⟩)
  · exact .inl h
  · injection h with h
    exact .inr (.inr ⟨hc, h.symm⟩)
  · exact .inr (.inl ⟨f, h⟩)

theorem execWaitIssue_cases (x : Buf) (y : Word) (h : execWaitIssue s = .next t) :
    t = s ∨ (∃ f, t = s.raise f) ∨ Effect (.waitIssue x y) s t := by
  rcases schStep_cases h with ⟨_, h⟩ | ⟨_, _, h⟩ | ⟨_, hc, h⟩ | ⟨_, _, f, _, h⟩
  · exact .inr (.inl ⟨_, h⟩)
  · exact .inl h
  · obtain ⟨u, hu, rfl⟩ := map_eq_ok h
    obtain ⟨_, h2, h3, h4, rfl⟩ := issue_ok hu
    refine .inr (.inr ⟨hc, h2, h3, by simpa [State.fillable] using h4, ?_⟩)
    simp [State.goto, State.emit, State.trigger, Dma.load_descriptor, State.fillable]
  · exact .inr (.inl ⟨f, h⟩)

theorem execCloseDone_cases (h : execCloseDone s = .next t) :
    t = s ∨ (∃ f, t = s.raise f) ∨ Effect .closeDone s t := by
  rcases schStep_cases h with ⟨_, h⟩ | ⟨_, _, h⟩ | ⟨_, hc, h⟩ | ⟨_, _, f, _, h⟩
  · exact .inr (.inl ⟨_, h⟩)
  · exact .inl h
  · injection h with h
    exact .inr (.inr ⟨hc, h.symm⟩)
  · exact .inr (.inl ⟨f, h⟩)

/-- R89: a host access is not the block's, refused, or done. -/
theorem hostAccessed_cases {ofs : BitVec 8} {u : State} (h : hostAccessed s ofs u = .next t) :
    (offsetInside ofs = false ∧ t = s) ∨ (offsetInside ofs = true ∧ offsetAligned ofs = false ∧ t = s.refuse) ∨
      (offsetInside ofs = true ∧ offsetAligned ofs = true ∧ t = u) := by
  unfold hostAccessed at h
  split at h
  · rename_i h1
    exact .inl ⟨h1, by injection h with h; exact h.symm⟩
  · split at h
    · rename_i h1 h2
      exact .inr (.inl ⟨by simpa using h1, h2, by injection h with h; exact h.symm⟩)
    · rename_i h1 h2
      exact .inr (.inr ⟨by simpa using h1, by simpa using h2, by injection h with h; exact h.symm⟩)

theorem execDmaMove_cases (x : Buf) (y : Word) (h : execDmaMove s = .next t) :
    t = s ∨ (∃ f, t = s.raise f) ∨ Effect (.dmaMove x y) s t := by
  rcases attempt_cases h with ⟨_, h⟩ | ⟨hc, h⟩ | ⟨_, f, _, h⟩
  · exact .inl h
  · split at h
    · cases h
    · rename_i w hw
      split at h
      · cases h
      · rename_i q hq
        injection h with h
        exact .inr (.inr ⟨hc, w, hw, by rw [← h, (queuePush_ok hq).2]⟩)
  · exact .inr (.inl ⟨f, h⟩)

theorem execSoeEmit_cases (x : Word) (h : execSoeEmit s = .next t) : t = s ∨ Effect (.soeEmit x) s t := by
  unfold execSoeEmit at h
  cases hq : s.soe.q with
  | nil =>
    rw [hq] at h
    exact .inl (by injection h with h; exact h.symm)
  | cons w q =>
    rw [hq] at h
    exact .inr ⟨w, q, hq, by injection h with h; exact h.symm⟩

theorem readAnswer_ok (x : Buf) {err : Bool} {b : Word} (hc : canRespond s .read) (h : readAnswer err b s = .ok t) :
    Effect (.srcReadRsp x err b) s t := by
  unfold readAnswer at h
  split at h
  · cases h
  · split at h
    · cases h
    · split at h
      · cases h
      · rename_i h1 h2 h3
        cases hm : memWriteAll s.params.toParams s.bufmem (bufBase s.params.toParams s.sch.req.buf).toNat
            (s.env.bytes b.toNat) with
        | error f => simp [hm] at h
        | ok m =>
          rw [hm] at h
          injection h with h
          exact ⟨hc, h1, h2, by simpa using h3, m, hm, h.symm⟩

/-- Whatever an action does: nothing, a refusal, one fault, or its effect. -/
theorem exec_cases (i : Instr) (h : exec i s = .next t) :
    t = s ∨ t = s.refuse ∨ (∃ f, t = s.raise f) ∨ Effect i s t := by
  have lift {A B : Prop} (h : t = s ∨ A ∨ B) : t = s ∨ t = s.refuse ∨ A ∨ B := by tauto
  cases i with
  | startOpen => exact lift (execStartOpen_cases h)
  | openOk x => exact lift (execOpenOk_cases x h)
  | openFail => exact lift (execOpenFail_cases h)
  | primeErr => exact lift (execPrimeErr_cases h)
  | primeEmpty => exact lift (execPrimeEmpty_cases h)
  | primeShort x => exact lift (execPrimeShort_cases x h)
  | primeIssue x => exact lift (execPrimeIssue_cases x h)
  | fillReq x y => exact lift (execFillReq_cases x y h)
  | fillErr x => exact lift (execFillErr_cases x h)
  | fillEos x => exact lift (execFillEos_cases x h)
  | fillShort x y => exact lift (execFillShort_cases x y h)
  | fillOk x y => exact lift (execFillOk_cases x y h)
  | waitIssue x y => exact lift (execWaitIssue_cases x y h)
  | closeDone => exact lift (execCloseDone_cases h)
  | hostWrite ofs v =>
    rcases hostAccessed_cases h with ⟨_, h⟩ | ⟨_, _, h⟩ | h
    · exact .inl h
    · exact .inr (.inl h)
    · exact .inr (.inr (.inr h))
  | hostRead ofs v =>
    rcases hostAccessed_cases h with ⟨_, h⟩ | ⟨_, _, h⟩ | h
    · exact .inl h
    · exact .inr (.inl h)
    · exact .inr (.inr (.inr h))
  | dmaMove x y => exact lift (execDmaMove_cases x y h)
  | soeEmit x =>
    rcases execSoeEmit_cases x h with h | h
    · exact .inl h
    · exact .inr (.inr (.inr h))
  | srcOpenRsp err hd =>
    rcases attempt_cases h with ⟨_, h⟩ | ⟨hc, h⟩ | ⟨_, f, _, h⟩
    · exact .inl h
    · injection h with h
      exact .inr (.inr (.inr ⟨hc, h.symm⟩))
    · exact .inr (.inr (.inl ⟨f, h⟩))
  | srcReadRsp x err b =>
    rcases attempt_cases h with ⟨_, h⟩ | ⟨hc, h⟩ | ⟨_, f, _, h⟩
    · exact .inl h
    · exact .inr (.inr (.inr (readAnswer_ok x hc h)))
    · exact .inr (.inr (.inl ⟨f, h⟩))
  | srcCloseRsp =>
    rcases attempt_cases h with ⟨_, h⟩ | ⟨hc, h⟩ | ⟨_, f, _, h⟩
    · exact .inl h
    · injection h with h
      exact .inr (.inr (.inr ⟨hc, h.symm⟩))
    · exact .inr (.inr (.inl ⟨f, h⟩))
  | reset =>
    injection h with h
    exact .inr (.inr (.inr h.symm))

end Sys2Proof.Machine
end

