-- ==== Sys2Proof/Laws/PerInstr.lean ====
section
/-! SUPPORT. The per-action family `Fields`: decoding the fields an action's record is packed from (30_encoding.md R92 to
R94) gives the action back. -/

namespace Sys2Proof.Laws.Fields

/-- The fields of a well-formed action's record decode to it. -/
def Statement (i : Instr) : Prop :=
  i.wellFormed = true → decodeFields (actCode i) (bufBit i) (errBit i) (ofsField i) (argField i) = some i

theorem startOpen : Statement .startOpen := by
  intro _; simp [decodeFields, actCode, bufBit, errBit, ofsField, argField]

theorem openOk (len : Word) : Statement (.openOk len) := by
  intro _; simp [decodeFields, actCode, bufBit, errBit, ofsField, argField]

theorem openFail : Statement .openFail := by
  intro _; simp [decodeFields, actCode, bufBit, errBit, ofsField, argField]

theorem primeErr : Statement .primeErr := by
  intro _; simp [decodeFields, actCode, bufBit, errBit, ofsField, argField]

theorem primeEmpty : Statement .primeEmpty := by
  intro _; simp [decodeFields, actCode, bufBit, errBit, ofsField, argField]

theorem primeShort (bytes : Word) : Statement (.primeShort bytes) := by
  intro _; simp [decodeFields, actCode, bufBit, errBit, ofsField, argField]

theorem primeIssue (words : Word) : Statement (.primeIssue words) := by
  intro _; simp [decodeFields, actCode, bufBit, errBit, ofsField, argField]

theorem fillReq (buf : Buf) (len : Word) : Statement (.fillReq buf len) := by
  intro _; cases buf <;> simp [decodeFields, actCode, bufBit, errBit, ofsField, argField, Buf.toBit, Buf.ofBit]

theorem fillErr (buf : Buf) : Statement (.fillErr buf) := by
  intro _; cases buf <;> simp [decodeFields, actCode, bufBit, errBit, ofsField, argField, Buf.toBit, Buf.ofBit]

theorem fillEos (buf : Buf) : Statement (.fillEos buf) := by
  intro _; cases buf <;> simp [decodeFields, actCode, bufBit, errBit, ofsField, argField, Buf.toBit, Buf.ofBit]

theorem fillShort (buf : Buf) (bytes : Word) : Statement (.fillShort buf bytes) := by
  intro _; cases buf <;> simp [decodeFields, actCode, bufBit, errBit, ofsField, argField, Buf.toBit, Buf.ofBit]

theorem fillOk (buf : Buf) (bytes : Word) : Statement (.fillOk buf bytes) := by
  intro _; cases buf <;> simp [decodeFields, actCode, bufBit, errBit, ofsField, argField, Buf.toBit, Buf.ofBit]

theorem waitIssue (buf : Buf) (words : Word) : Statement (.waitIssue buf words) := by
  intro _; cases buf <;> simp [decodeFields, actCode, bufBit, errBit, ofsField, argField, Buf.toBit, Buf.ofBit]

theorem closeDone : Statement .closeDone := by
  intro _; simp [decodeFields, actCode, bufBit, errBit, ofsField, argField]

theorem hostWrite (ofs : BitVec 8) (value : Word) : Statement (.hostWrite ofs value) := by
  intro _; simp [decodeFields, actCode, bufBit, errBit, ofsField, argField]

theorem hostRead (ofs : BitVec 8) (value : Word) : Statement (.hostRead ofs value) := by
  intro _; simp [decodeFields, actCode, bufBit, errBit, ofsField, argField]

theorem dmaMove (buf : Buf) (word : Word) : Statement (.dmaMove buf word) := by
  intro _; cases buf <;> simp [decodeFields, actCode, bufBit, errBit, ofsField, argField, Buf.toBit, Buf.ofBit]

theorem soeEmit (word : Word) : Statement (.soeEmit word) := by
  intro _; simp [decodeFields, actCode, bufBit, errBit, ofsField, argField]

theorem srcOpenRsp (err : Bool) (handle : Word) : Statement (.srcOpenRsp err handle) := by
  intro h; cases err <;> simp_all [decodeFields, actCode, bufBit, errBit, ofsField, argField, Instr.wellFormed]

theorem srcReadRsp (buf : Buf) (err : Bool) (bytes : Word) : Statement (.srcReadRsp buf err bytes) := by
  intro _; cases buf <;> simp [decodeFields, actCode, bufBit, errBit, ofsField, argField, Buf.toBit, Buf.ofBit]

theorem srcCloseRsp : Statement .srcCloseRsp := by
  intro _; simp [decodeFields, actCode, bufBit, errBit, ofsField, argField]

theorem reset : Statement .reset := by
  intro _; simp [decodeFields, actCode, bufBit, errBit, ofsField, argField]

end Sys2Proof.Laws.Fields
end

