-- ==== Sys2Proof/Machine/Text.lean ====
section
/-! DEFINITION. The textual syntax of a trace record (30_encoding.md R108): the mnemonic, then the operands the action has,
separated by commas. Observation only: no meaning uses it. -/

namespace Sys2Proof.Machine

/-- The upper-case hexadecimal digit of a number below 16. -/
def hexDigit (n : Nat) : Char := if n < 10 then Char.ofNat (48 + n) else Char.ofNat (55 + n)

/-- The `k` low hexadecimal digits of `n`, most significant first. -/
def hexDigits : Nat → Nat → List Char
  | 0, _ => []
  | k + 1, n => hexDigits k (n / 16) ++ [hexDigit (n % 16)]

/-- A number of `k` hexadecimal digits with its prefix, as `0x04`. -/
def hexText (k n : Nat) : String := "0x" ++ String.ofList (hexDigits k n)

/-- The decimal digits of `n`, at most `fuel` of them. -/
def decDigits : Nat → Nat → List Char
  | 0, _ => []
  | fuel + 1, n => if n < 10 then [Char.ofNat (48 + n)] else decDigits fuel (n / 10) ++ [Char.ofNat (48 + n % 10)]

/-- A 32-bit count in decimal, as `16`. -/
def decText (w : Word) : String := String.ofList (decDigits 10 w.toNat)

/-- A buffer id as `A` or `B`. -/
def bufText : Buf → String
  | .a => "A"
  | .b => "B"

/-- R90: the mnemonic. -/
def mnemonic : Instr → String
  | .startOpen => "START_OPEN"
  | .openOk _ => "OPEN_OK"
  | .openFail => "OPEN_FAIL"
  | .primeErr => "PRIME_ERR"
  | .primeEmpty => "PRIME_EMPTY"
  | .primeShort _ => "PRIME_SHORT"
  | .primeIssue _ => "PRIME_ISSUE"
  | .fillReq _ _ => "FILL_REQ"
  | .fillErr _ => "FILL_ERR"
  | .fillEos _ => "FILL_EOS"
  | .fillShort _ _ => "FILL_SHORT"
  | .fillOk _ _ => "FILL_OK"
  | .waitIssue _ _ => "WAIT_ISSUE"
  | .closeDone => "CLOSE_DONE"
  | .hostWrite _ _ => "HOST_WRITE"
  | .hostRead _ _ => "HOST_READ"
  | .dmaMove _ _ => "DMA_MOVE"
  | .soeEmit _ => "SOE_EMIT"
  | .srcOpenRsp _ _ => "SRC_OPEN_RSP"
  | .srcReadRsp _ _ _ => "SRC_READ_RSP"
  | .srcCloseRsp => "SRC_CLOSE_RSP"
  | .reset => "RESET"

/-- R108: the operands of an action, in the order BUF, ERR, OFS, ARG (notes/assumptions/22.md). -/
def operandTexts : Instr → List String
  | .startOpen | .primeEmpty | .closeDone | .srcCloseRsp | .reset => []
  | .openFail | .primeErr => ["err"]
  | .openOk len => ["A", decText len]
  | .primeShort bytes => ["A", decText bytes]
  | .primeIssue words => ["A", decText words]
  | .fillReq f len => [bufText f, decText len]
  | .fillErr f => [bufText f, "err"]
  | .fillEos f => [bufText f]
  | .fillShort f bytes => [bufText f, decText bytes]
  | .fillOk f bytes => [bufText f, decText bytes]
  | .waitIssue f words => [bufText f, decText words]
  | .hostWrite ofs v => [hexText 2 ofs.toNat, hexText 8 v.toNat]
  | .hostRead ofs v => [hexText 2 ofs.toNat, hexText 8 v.toNat]
  | .dmaMove f w => [bufText f, hexText 8 w.toNat]
  | .soeEmit w => [hexText 8 w.toNat]
  | .srcOpenRsp err h => if err then ["err", decText h] else [decText h]
  | .srcReadRsp f err bytes => if err then [bufText f, "err", decText bytes] else [bufText f, decText bytes]

/-- R108: the text of a record, or `INVALID` (R96). -/
def recordText (r : Record) : String :=
  match decode r with
  | none => "INVALID"
  | some i =>
    match operandTexts i with
    | [] => mnemonic i
    | o :: os => os.foldl (fun acc x => acc ++ ", " ++ x) (mnemonic i ++ " " ++ o)

end Sys2Proof.Machine
end

