-- ==== Sys2Proof/Tests/Slice0.lean ====
section
/-! SUPPORT. Tests with expected values from spec/ (95_test_vectors.md or worked out from the rule cited), and a named
witness for the hypotheses of every obligation that has any. -/

namespace Sys2Proof.Tests

open Sys2Proof.Machine

/-! ### Helpers: small states under PS16, and one field of what an action answers -/

/-- What `f` reads in the next state; `none` where there is none. -/
def look {α : Type} (f : State → α) : Answer → Option α
  | .next t => some (f t)
  | .fault _ => none
  | .refused _ => none

/-- Reset with the scheduler in a control state. -/
def inPhase (st : St) (ph : Ph) : State := State.reset.goto st ph

/-- A response waiting in a control state. -/
def withRsp (st : St) (ph : Ph) (op : SrcOp) (err : Bool) (bytes handle : Word) : State :=
  (inPhase st ph).respond op err bytes handle

/-- A request outstanding in a control state. -/
def withReq (st : St) (ph : Ph) (op : SrcOp) (f : Buf) (len : Word) : State :=
  { inPhase st ph with
    sch :=
      { (inPhase st ph).sch with
        req := { valid := true, op := op, buf := f, len := len, handle := 1#32, name := none } } }

/-- The bytes 0x00 to 0x07 at the base of buffer A. -/
def bytesA : Memory := (List.range 8).map fun k => (0x20000000 + k, BitVec.ofNat 8 k)

/-- A transfer of `n` words of buffer A in flight (start of vector D1), in the given control state. -/
def moving (st : St) (ph : Ph) (n : Word) : State :=
  { (inPhase st ph).trigger .a n with bufmem := bytesA }

/-- In `(STREAMING, WAIT)` with the transfer of A done and two words of B pending: met by every premise of the invariant. -/
def waiting : State :=
  { (inPhase .streaming .wait).trigger .a 2#32 with
    dma := { ((inPhase .streaming .wait).trigger .a 2#32).dma with busy := false, done := true, count := 0#32 }
    sch := { ((inPhase .streaming .wait).trigger .a 2#32).sch with pendWords := 1#32, hvalid := true }
    bufmem := (List.range 4).map fun k => (0x20000010 + k, 0xAB#8) }

/-- In `(STREAMING, FILL)` with a read of B outstanding, A's transfer in flight and a turn scheduled: met by every premise
of the invariant. -/
def filling : State :=
  { moving .streaming .fill 2#32 with
    sch :=
      { (moving .streaming .fill 2#32).sch with
        hvalid := true
        req := { valid := true, op := .read, buf := .b, len := 16#32, handle := 1#32, name := none } }
    env := { State.reset.env with program := [.action 0x0000000000000171#64] } }

/-- A state outside the eleven control pairs. -/
def unsound : State := inPhase .done .fill

/-! ### Well-formed actions -/

/-- R93: a failed open carries no handle. -/
theorem test_wellFormed_refuses_error_with_handle : (Instr.srcOpenRsp true 1#32).wellFormed = false := by decide

theorem test_wellFormed_admits :
    (Instr.srcOpenRsp true 0#32).wellFormed = true ∧ (Instr.srcOpenRsp false 1#32).wellFormed = true ∧
      (Instr.hostWrite 0xFF#8 7#32).wellFormed = true := by decide

/-! ### Decoding: words written out bit by bit from R90 and R92 (ARG, 0, OFS, 0, ERR, BUF, ACT) -/

theorem test_decode_session :
    decode (0#32 ++ 0#8 ++ 0#8 ++ 0#6 ++ 0#1 ++ 0#1 ++ 0b00000001#8) = some .startOpen ∧
      decode (16#32 ++ 0#8 ++ 0#8 ++ 0#6 ++ 0#1 ++ 0#1 ++ 0b00000010#8) = some (.openOk 16#32) ∧
      decode (0#32 ++ 0#8 ++ 0#8 ++ 0#6 ++ 1#1 ++ 0#1 ++ 0b00000011#8) = some .openFail := by decide

theorem test_decode_prime :
    decode (0#32 ++ 0#8 ++ 0#8 ++ 0#6 ++ 1#1 ++ 0#1 ++ 0b00010000#8) = some .primeErr ∧
      decode (0#32 ++ 0#8 ++ 0#8 ++ 0#6 ++ 0#1 ++ 0#1 ++ 0b00010001#8) = some .primeEmpty ∧
      decode (3#32 ++ 0#8 ++ 0#8 ++ 0#6 ++ 0#1 ++ 0#1 ++ 0b00010010#8) = some (.primeShort 3#32) ∧
      decode (4#32 ++ 0#8 ++ 0#8 ++ 0#6 ++ 0#1 ++ 0#1 ++ 0b00010011#8) = some (.primeIssue 4#32) := by decide

theorem test_decode_step :
    decode (16#32 ++ 0#8 ++ 0#8 ++ 0#6 ++ 0#1 ++ 1#1 ++ 0b00100000#8) = some (.fillReq .b 16#32) ∧
      decode (0#32 ++ 0#8 ++ 0#8 ++ 0#6 ++ 1#1 ++ 1#1 ++ 0b00100001#8) = some (.fillErr .b) ∧
      decode (0#32 ++ 0#8 ++ 0#8 ++ 0#6 ++ 0#1 ++ 0#1 ++ 0b00100010#8) = some (.fillEos .a) ∧
      decode (2#32 ++ 0#8 ++ 0#8 ++ 0#6 ++ 0#1 ++ 1#1 ++ 0b00100011#8) = some (.fillShort .b 2#32) ∧
      decode (13#32 ++ 0#8 ++ 0#8 ++ 0#6 ++ 0#1 ++ 0#1 ++ 0b00100100#8) = some (.fillOk .a 13#32) ∧
      decode (3#32 ++ 0#8 ++ 0#8 ++ 0#6 ++ 0#1 ++ 1#1 ++ 0b00100101#8) = some (.waitIssue .b 3#32) := by decide

theorem test_decode_termination_host_reset :
    decode (0#32 ++ 0#8 ++ 0#8 ++ 0#6 ++ 0#1 ++ 0#1 ++ 0b00110000#8) = some .closeDone ∧
      decode (1#32 ++ 0#8 ++ 0#8 ++ 0#6 ++ 0#1 ++ 0#1 ++ 0b01000000#8) = some (.hostWrite 0#8 1#32) ∧
      decode (16#32 ++ 0#8 ++ 0x18#8 ++ 0#6 ++ 0#1 ++ 0#1 ++ 0b01000001#8) = some (.hostRead 0x18#8 16#32) ∧
      decode (0#32 ++ 0#8 ++ 0#8 ++ 0#6 ++ 0#1 ++ 0#1 ++ 0b11110000#8) = some .reset := by decide

theorem test_decode_environment :
    decode (0x13121110#32 ++ 0#8 ++ 0#8 ++ 0#6 ++ 0#1 ++ 1#1 ++ 0b01010000#8) = some (.dmaMove .b 0x13121110#32) ∧
      decode (5#32 ++ 0#8 ++ 0#8 ++ 0#6 ++ 0#1 ++ 0#1 ++ 0b01100000#8) = some (.soeEmit 5#32) ∧
      decode (7#32 ++ 0#8 ++ 0#8 ++ 0#6 ++ 0#1 ++ 0#1 ++ 0b01110000#8) = some (.srcOpenRsp false 7#32) ∧
      decode (0#32 ++ 0#8 ++ 0#8 ++ 0#6 ++ 1#1 ++ 1#1 ++ 0b01110001#8) = some (.srcReadRsp .b true 0#32) ∧
      decode (0#32 ++ 0#8 ++ 0#8 ++ 0#6 ++ 0#1 ++ 0#1 ++ 0b01110010#8) = some .srcCloseRsp := by decide

/-- 95_test_vectors.md section 2.1, the INVALID rows. -/
theorem test_decode_invalid :
    decode 0x0000000000000004#64 = none ∧ decode 0x0000000000000211#64 = none ∧ decode 0x0000000000040050#64 = none ∧
      decode 0x0000000000000430#64 = none ∧ decode 0x0000000001000030#64 = none := by decide

/-- R108, the examples of the text syntax. -/
theorem test_text :
    recordText 0x000104BB00040041#64 = "HOST_READ 0x04, 0x000104BB" ∧
      recordText 0x0000000000000221#64 = "FILL_ERR A, err" ∧ recordText 0x0000000400000013#64 = "PRIME_ISSUE A, 4" := by
  decide

/-! ### One step per test -/

/-- H1: `STATUS = 0x00002000`. -/
theorem test_hostWrite_start :
    look (fun t => (t.status, t.trace.getLast?)) (exec (.hostWrite 0#8 1#32) State.reset) =
      some (0x00002000#32, some 0x0000000100000040#64) := by decide

/-- H3: bit 0 is 0. -/
theorem test_hostWrite_reserved_bits_ignored :
    look (fun t => t.sch.startPend) (exec (.hostWrite 0#8 0xFFFFFFFE#32) State.reset) = some false := by decide

/-- H6. -/
theorem test_hostRead_bufsize :
    look (fun t => t.trace.getLast?) (exec (.hostRead 0x18#8 0#32) State.reset) = some (some 0x0000001000180041#64) := by
  decide

/-- `STATUS` of the final state of P1, `0x000104BB`. -/
theorem test_hostRead_status :
    look (fun t => t.trace.getLast?)
        (exec (.hostRead 0x04#8 0#32)
          { moving .done .stop 2#32 with
            dma := { (moving .done .stop 2#32).dma with busy := false, done := true }
            sch := { (moving .done .stop 2#32).sch with cause := .endOfSource } }) =
      some (some 0x000104BB00040041#64) := by decide

/-- H9, H10: an 8-bit read of 0x04 and a 32-bit write of 0x02 are refused. -/
theorem test_refused_accesses :
    look (fun t => (t.refused, t.trace.length))
        (takeHostAccess { addr := 4#32, width := 8, write := none } State.reset) = some (true, 1) ∧
      look (fun t => (t.refused, t.trace.length))
        (takeHostAccess { addr := 2#32, width := 32, write := some 1#32 } State.reset) = some (true, 1) := by decide

/-- O1: `STATUS = 0x00004008`. -/
theorem test_startOpen :
    look (fun t => (t.status, t.sch.req.op))
        (exec .startOpen { State.reset with sch := { State.reset.sch with startPend := true } }) =
      some (0x00004008#32, .opn) := by decide

/-- R143, its example: handle 1, a read of 16 bytes into A. -/
theorem test_openOk :
    look (fun t => (t.sch.handle, t.sch.hvalid, t.sch.req.len, t.trace.getLast?))
        (exec (.openOk 0#32) (withRsp .idle .opn .opn false 0#32 1#32)) =
      some (1#32, true, 16#32, some 0x0000001000000002#64) := by decide

/-- R144, its example; `STATUS = 0x0002003C`. -/
theorem test_openFail :
    look (fun t => (t.status, t.console)) (exec .openFail (withRsp .idle .opn .opn true 0#32 0#32)) =
      some (0x0002003C#32, [.openFail]) := by decide

/-- R200: `LAST_BYTES = 0` is recorded with `SourceOpenError` as with every cause. -/
theorem test_openFail_lastBytes :
    look (fun t => t.sch.lastBytes)
        (exec .openFail ((withRsp .idle .opn .opn true 0#32 0#32).setLastBytes 5#32)) = some 0#32 := by decide

/-- O6. -/
theorem test_primeErr :
    look (fun t => (t.sch.ph, t.sch.cause, t.sch.msg, t.trace.getLast?))
        (exec .primeErr (withRsp .idle .prime .read true 0#32 0#32)) =
      some (.close, .sourceReadError, .readErr, some 0x0000000000000210#64) := by decide

/-- O7. -/
theorem test_primeEmpty :
    look (fun t => (t.sch.st, t.sch.cause, t.sch.req.op)) (exec .primeEmpty (withRsp .idle .prime .read false 0#32 0#32)) =
      some (.halted, .emptySource, .close) := by decide

/-- O4, first half. -/
theorem test_primeShort :
    look (fun t => (t.sch.lastBytes, t.sch.ph, t.trace.getLast?))
        (exec (.primeShort 0#32) (withRsp .idle .prime .read false 3#32 0#32)) =
      some (3#32, .prime, some 0x0000000300000012#64) := by decide

/-- O5: 7 bytes give one word. -/
theorem test_primeIssue :
    look (fun t => (t.dma.count, t.sch.lastBytes, t.sch.ownA, t.trace.getLast?))
        (exec (.primeIssue 0#32) (withRsp .idle .prime .read false 7#32 0#32)) =
      some (1#32, 7#32, true, some 0x0000000100000013#64) := by decide

/-- T1. -/
theorem test_fillReq :
    look (fun t => (t.sch.req.buf, t.sch.st, t.trace.getLast?)) (exec (.fillReq .a 0#32) (moving .primed .issued 4#32)) =
      some (.b, .streaming, some 0x0000001000000120#64) := by decide

/-- T7, with no word moved yet. -/
theorem test_fillErr :
    look (fun t => (t.status, t.dma.busy, t.trace.getLast?))
        (exec (.fillErr .a)
          { moving .streaming .fill 4#32 with
            sch := { ((moving .streaming .fill 4#32).respond .read true 0#32 0#32).sch with hvalid := true } }) =
      some (0x00045AB4#32, true, some 0x0000000000000321#64) := by decide

/-- T8. -/
theorem test_fillEos :
    look (fun t => (t.sch.st, t.sch.cause, t.dma.busy))
        (exec (.fillEos .a) ((moving .streaming .fill 4#32).respond .read false 0#32 0#32)) =
      some (.done, .endOfSource, true) := by decide

/-- T2. -/
theorem test_fillShort :
    look (fun t => (t.sch.active, t.sch.req.buf, t.sch.xferCount, t.trace.getLast?))
        (exec (.fillShort .a 0#32) ((moving .streaming .fill 4#32).respond .read false 2#32 0#32)) =
      some (.a, .b, 1#32, some 0x0000000200000123#64) := by decide

/-- T3: 13 bytes give 3 words. -/
theorem test_fillOk :
    look (fun t => (t.sch.pendWords, t.sch.lastBytes, t.sch.ph))
        (exec (.fillOk .a 0#32) ((moving .streaming .fill 4#32).respond .read false 13#32 0#32)) =
      some (3#32, 13#32, .wait) := by decide

/-- T5 with one word pending. -/
theorem test_waitIssue :
    look (fun t => (t.sch.ownA, t.sch.ownB, t.sch.active, t.dma.buf, t.sch.xferCount, t.sch.pendWords))
        (exec (.waitIssue .a 0#32) waiting) = some (false, true, .b, .b, 2#32, 0#32) := by decide

/-- T4: not enabled while the transfer is in flight. -/
theorem test_waitIssue_holds :
    look (fun t => t.trace.length) (exec (.waitIssue .b 2#32) (moving .streaming .wait 2#32)) = some 1 := by decide

/-- E1. -/
theorem test_closeDone :
    look (fun t => (t.sch.ph, t.sch.hvalid, t.trace.getLast?))
        (exec .closeDone (withRsp .done .close .close false 0#32 0#32)) =
      some (.stop, false, some 0x0000000000000030#64) := by decide

/-- D1, the first move. -/
theorem test_dmaMove :
    look (fun t => (t.soe.q, t.dma.readAddr, t.dma.busy)) (exec (.dmaMove .a 0#32) (moving .primed .issued 2#32)) =
      some ([0x03020100#32], 0x20000004#32, true) := by decide

/-- D2 on buffer A: the only move of a transfer sets `DONE`. -/
theorem test_dmaMove_last :
    look (fun t => (t.dma.busy, t.dma.done, t.dma.count, t.trace.getLast?))
        (exec (.dmaMove .b 0#32) (moving .primed .issued 1#32)) =
      some (false, true, 0#32, some 0x0302010000000050#64) := by decide

/-- S1: the first byte out is 00000011, the line ends at 0. -/
theorem test_soeEmit :
    look (fun t => (t.soe.out.take 8, t.soe.out.length, t.soe.line))
        (exec (.soeEmit 0#32) { State.reset with soe := { State.reset.soe with q := [0x03020100#32] } }) =
      some ([false, false, false, false, false, false, true, true], 32, .level false) := by decide

/-- S4: least significant bit first. -/
theorem test_soeEmit_lsbFirst : (shiftBits .lsbFirst 1#32).take 2 = [true, false] := by decide

/-- O3: the handle of an error is dropped. -/
theorem test_srcOpenRsp :
    look (fun t => (t.sch.rsp.handle, t.sch.req.valid, t.trace.getLast?))
        (exec (.srcOpenRsp true 0x1234#32) (withReq .idle .opn .opn .a 0#32)) =
      some (0#32, false, some 0x0000000000000270#64) := by decide

/-- B1 with two bytes. -/
theorem test_srcReadRsp :
    look (fun t => (t.bufmem, t.sch.rsp.bytes, t.trace.getLast?))
        (exec (.srcReadRsp .a false 2#32)
          { withReq .streaming .fill .read .b 16#32 with
            env := { program := [], turns := 0, feed := [0x20#8, 0x21#8], draws := 0 } }) =
      some ([(0x20000010, 0x20#8), (0x20000011, 0x21#8)], 2#32, some 0x0000000200000171#64) := by decide

/-- B2: 17 bytes break the contract. -/
theorem test_srcReadRsp_contract :
    look (fun t => (t.faults, t.bufmem, t.sch.req.valid))
        (exec (.srcReadRsp .b false 17#32) (withReq .streaming .fill .read .b 16#32)) =
      some (0x080#10, [], true) := by decide

/-- B5. -/
theorem test_srcCloseRsp :
    look (fun t => (t.sch.rsp.op, t.trace.getLast?)) (exec .srcCloseRsp (withReq .done .close .close .a 0#32)) =
      some (.close, some 0x0000000000000072#64) := by decide

/-- E4. -/
theorem test_reset :
    look (fun t => (t.status, t.trace, t.soe.q, t.bufmem)) (exec .reset (moving .streaming .fill 2#32)) =
      some (0#32, [0x00000000000000F0#64], [], []) := by decide

/-- A row's word placed as the next turn runs: HOST_WRITE at offset 0 of the value 1. -/
theorem test_withFetchWord :
    look (fun t => t.sch.startPend) (step (State.reset.withFetchWord 64 0x0000000100000040)) = some true := by decide

/-- M1, M3, M4 and M6. -/
theorem test_memRead :
    memRead Params.ps16 [(0x20000000, 0x11#8), (0x20000001, 0x22#8), (0x20000002, 0x33#8), (0x20000003, 0x44#8)]
        0x20000000#32 = .ok 0x44332211#32 ∧
      memRead Params.ps16 [] 0x20000002#32 = .error .misaligned ∧
      memRead Params.ps16 [] 0x20000020#32 = .error .busRange ∧
      memRead Params.ps16 [] 0x20000000#32 = .error .unwrittenRead := by
  refine ⟨?_, ?_, ?_, ?_⟩ <;> rfl

/-- R22: a pair outside the eleven. -/
theorem test_badState : look (fun t => t.faults) (exec (.fillOk .a 4#32) unsound) = some 0x200#10 := by decide

/-- R7: overlapping buffers are refused at configuration. -/
theorem test_configure_refuses :
    State.configure { Params.ps16 with baseB := 0x20000008#32 } = .refused .badParameters := by
  rfl

/-! ### The invariant on states in mid-session -/

theorem waiting_inv : waiting.Inv where
  control := by decide
  ownership := by decide
  transfer := by decide
  source := ⟨by decide, by decide, by decide, by decide, by decide⟩
  pending := by decide
  outcome := by decide
  start := by decide
  handle := by decide
  lastBytes := by decide
  memory := by decide
  queue := by decide
  faults := by decide

theorem filling_inv : filling.Inv where
  control := by decide
  ownership := by decide
  transfer := by decide
  source := ⟨by decide, by decide, by decide, by decide, by decide⟩
  pending := by decide
  outcome := by decide
  start := by decide
  handle := by decide
  lastBytes := by decide
  memory := by decide
  queue := by decide
  faults := by decide

/-! ### Witnesses: concrete data that meet the hypotheses of each obligation, clause by clause -/

theorem witness_DecodingAnEncodedActionGivesItBack : (Instr.srcOpenRsp true 0#32).wellFormed = true := by decide

theorem witness_EncodingADecodedRecordGivesItBack :
    decode 0x0000000000000270#64 = some (.srcOpenRsp true 0#32) := by decide

/-- One record for each way of being reserved, at the first and last reserved bit of each field. -/
theorem witness_ReservedRecordsAreInvalid :
    (0x00#8 ∉ [0x01#8, 0xF0#8] ∧ decode 0x0000000000000000#64 = none ∧ decode 0x00000000000000FF#64 = none) ∧
      ((0x0000000000008001#64).extractLsb' 10 6 ≠ 0#6 ∧ decode 0x0000000000008001#64 = none) ∧
      ((0x0000000080000001#64).extractLsb' 24 8 ≠ 0#8 ∧ decode 0x0000000080000001#64 = none) ∧
      ((0x00000000000001F0#64).getLsbD 8 = true ∧ decode 0x00000000000001F0#64 = none) ∧
      ((0x00000000000002F0#64).getLsbD 9 = true ∧ decode 0x00000000000002F0#64 = none) ∧
      ((0x0000000000800072#64).extractLsb' 16 8 ≠ 0#8 ∧ decode 0x0000000000800072#64 = none) := by decide

/-- A record, the end of the schedule, a raw host access and a raw response as the next turn. -/
theorem witness_StepRunsTheDecodedAction :
    (State.reset.withFetchWord 64 0xF0).env.program = .action 0x00000000000000F0#64 :: [] ∧
      decode 0x00000000000000F0#64 = some .reset ∧ State.reset.env.program = [] ∧
      look (fun t => (t.refused, t.env.program))
          (step { State.reset with
                  env := { State.reset.env with program := [.hostAccess { addr := 1#32, width := 32, write := none }] } }) =
        some (true, []) ∧
      look (fun t => (t.faults, t.env.program))
          (step { filling with env := { filling.env with program := [.response 3#32 0#32 0#32] } }) =
        some (0x080#10, []) := by decide

theorem witness_InvalidRecordIsRefused :
    (State.reset.withFetchWord 64 0x04).env.program = .action 0x0000000000000004#64 :: [] ∧
      decode 0x0000000000000004#64 = none := by decide

/-- PS16 with the register block at 0x100. -/
def based : ValidParams := ⟨{ Params.ps16 with regBase := 0x100#32 }, by decide⟩

/-- Inside: 0x101, 0x11F and 24 bits at 0x100 are refused, 0x100 and 0x11C are not; outside: 0xFF and 0x120. -/
theorem witness_HostAccessesAreSortedByTheirAddressAndWidth :
    look (fun t => t.refused)
        (takeHostAccess { addr := 0x101#32, width := 32, write := none } (State.powerOn based)) = some true ∧
      look (fun t => t.refused)
        (takeHostAccess { addr := 0x11F#32, width := 32, write := none } (State.powerOn based)) = some true ∧
      look (fun t => t.refused)
        (takeHostAccess { addr := 0x100#32, width := 24, write := none } (State.powerOn based)) = some true ∧
      look (fun t => t.trace.length)
        (takeHostAccess { addr := 0x100#32, width := 32, write := some 1#32 } (State.powerOn based)) = some 2 ∧
      look (fun t => t.trace.length)
        (takeHostAccess { addr := 0x11C#32, width := 32, write := none } (State.powerOn based)) = some 2 ∧
      look (fun t => (t.refused, t.trace.length))
        (takeHostAccess { addr := 0xFF#32, width := 64, write := none } (State.powerOn based)) = some (false, 1) ∧
      look (fun t => (t.refused, t.trace.length))
        (takeHostAccess { addr := 0x120#32, width := 32, write := none } (State.powerOn based)) = some (false, 1) := by
  decide

theorem witness_RawResponsesAreTheSourcesAnswers :
    (4#32).extractLsb' 0 2 = 0#2 ∧ (1#32).extractLsb' 0 2 = 1#2 ∧ (2#32).extractLsb' 0 2 = 2#2 ∧
      (3#32).extractLsb' 0 2 = 3#2 ∧ look (fun t => t.faults) (takeResponse 3#32 0#32 0#32 filling) = some 0x080#10 ∧
      look (fun t => t.faults) (takeResponse 3#32 0#32 0#32 State.reset) = some 0#10 := by decide

/-- A start that is not pending, and one that is; a response of 1, 3 and 4 bytes, the ends of the ranges. -/
theorem witness_DisabledActionsHold :
    enabled .startOpen State.reset = false ∧ State.reset.sch.sound = true ∧
      enabled .startOpen { State.reset with sch := { State.reset.sch with startPend := true } } = true ∧
      enabled .primeEmpty (withRsp .idle .prime .read false 1#32 0#32) = false ∧
      enabled (.primeShort 0#32) (withRsp .idle .prime .read false 1#32 0#32) = true ∧
      enabled (.primeShort 0#32) (withRsp .idle .prime .read false 3#32 0#32) = true ∧
      enabled (.primeShort 0#32) (withRsp .idle .prime .read false 4#32 0#32) = false ∧
      enabled (.primeIssue 0#32) (withRsp .idle .prime .read false 4#32 0#32) = true := by
  refine ⟨?_, ?_, ?_, ?_, ?_, ?_, ?_, ?_⟩ <;> decide

theorem witness_ReservedControlStateRaisesBadState :
    isSchedulerAction .closeDone = true ∧ unsound.sch.sound = false ∧
      { State.reset.sch with cause := .reserved5 }.sound = false ∧
      { State.reset.sch with msg := .reserved7 }.sound = false := by decide

/-- A fault raised for the first time, the same one raised again, and a step that records. -/
theorem witness_AFaultingStepHasNoOtherEffect :
    Instr.srcReadRsp .b false 17#32 ≠ .reset ∧
      (∃ t, exec (.srcReadRsp .b false 17#32) filling = .next t ∧ t.faults ≠ filling.faults ∧ t.faults ≠ 0#10) ∧
      (∃ t, exec (.srcReadRsp .b false 17#32) (filling.raise .srcContract) = .next t ∧
        t.faults = (filling.raise .srcContract).faults ∧ t.trace = filling.trace) ∧
      ∃ t, exec (.srcReadRsp .b false 0#32) filling = .next t ∧ t.trace ≠ filling.trace :=
  ⟨by decide, ⟨_, rfl, by decide, by decide⟩, ⟨_, rfl, by decide, by decide⟩, _, rfl, by decide⟩

theorem witness_OnlyResetClearsRefused :
    State.reset.refuse.refused = true ∧ (∃ t, exec (.hostRead 0#8 0#32) State.reset.refuse = .next t) ∧
      ∃ t, exec .reset State.reset.refuse = .next t :=
  ⟨by decide, ⟨_, rfl⟩, _, rfl⟩

/-- D3 to D7 for `Issue`; M3 to M6 for `MemRead`; M7 and M8 for `MemWrite`; B2 to B4 and an owned target for
`SRC_READ_RSP`. -/
theorem witness_FaultsAreRaisedInTheirPriority :
    ((moving .primed .issued 2#32).dma.busy = true ∧ State.reset.dma.busy = false ∧
        (5#32).toNat > State.reset.params.bufferSize.toNat / 4 ∧ waiting.sch.own .a = true ∧ waiting.dma.busy = false ∧
        (4#32).toNat ≤ waiting.params.bufferSize.toNat / 4) ∧
      ((0x20000006#32).toNat % 4 ≠ 0 ∧ (0x20000020#32).toNat % 4 = 0 ∧ inBuffer Params.ps16 0x20000020 4 = false ∧
        inBuffer Params.ps16 0x2000001C 4 = true ∧ Memory.read [(0x2000001C, 0#8)] (0x2000001C + 3) = none ∧
        0x20000010 ≤ 0x2000001C ∧ 0x2000001C + 4 ≤ 0x20000010 + 16) ∧
      (memWrite Params.ps16 [] 0x2000001F 0xAB#8 = .ok [(0x2000001F, 0xAB#8)] ∧
        memWrite Params.ps16 [] 0x20000020 0xAB#8 = .error .busRange) ∧
      (filling.sch.req.valid = true ∧ filling.sch.req.op = .read ∧ filling.sch.rsp.valid = false ∧
        filling.sch.req.len.toNat < (17#32).toNat ∧ (1#32).toNat ≤ filling.sch.req.len.toNat ∧
        { filling.sch with ownB := true }.own filling.sch.req.buf = true) ∧
      State.reset.sch.req.valid = false ∧ State.reset.sch.rsp.valid = false ∧
        (moving .primed .issued 2#32).sch.own .a = true := by decide

/-- The most words that fit, and the fewest. -/
theorem witness_IssueConfiguresAndTriggersTheChannel :
    State.reset.dma.busy = false ∧ 4#32 ≠ 0#32 ∧ (4#32).toNat ≤ State.reset.params.bufferSize.toNat / 4 ∧
      State.reset.sch.own .b = false ∧ 1#32 ≠ 0#32 := by decide

theorem witness_WordReadsAreLittleEndian :
    (0x20000004#32).toNat % 4 = 0 ∧ (bufBase Params.ps16 .a).toNat ≤ (0x20000004#32).toNat ∧
      (0x20000004#32).toNat + 4 ≤ (bufBase Params.ps16 .a).toNat + Params.ps16.bufferSize.toNat ∧
      bytesA.read 0x20000004 = some 4#8 ∧ bytesA.read 0x20000005 = some 5#8 ∧ bytesA.read 0x20000006 = some 6#8 ∧
      bytesA.read 0x20000007 = some 7#8 := by decide

theorem witness_TheQueueIsFirstInFirstOut :
    Params.ps16.queueDepth ≤ [0#32, 1#32, 2#32, 3#32].length ∧ [0#32, 1#32, 2#32].length < Params.ps16.queueDepth := by
  decide

theorem witness_SrcRequestPostsOneRequest :
    State.reset.sch.req.valid = false ∧ State.reset.sch.rsp.valid = false ∧
      (SrcOp.read = .read → State.reset.sch.own .b = false) ∧ SrcOp.close ≠ .opn := by decide

theorem witness_StartOpenRequestsOpen :
    { State.reset.sch with startPend := true }.sound = true ∧ State.reset.sch.st = .idle ∧
      State.reset.sch.ph = .ready ∧ State.reset.sch.req.valid = false ∧ State.reset.sch.rsp.valid = false := by decide

/-- Both clauses: buffer A free, and buffer A owned. -/
theorem witness_OpenOkKeepsTheHandleAndRequestsThePrimeRead :
    (withRsp .idle .opn .opn false 0#32 1#32).sch.sound = true ∧
      (withRsp .idle .opn .opn false 0#32 1#32).sch.ph = .opn ∧
      (withRsp .idle .opn .opn false 0#32 1#32).sch.rsp.valid = true ∧
      (withRsp .idle .opn .opn false 0#32 1#32).sch.rsp.op = .opn ∧
      (withRsp .idle .opn .opn false 0#32 1#32).sch.rsp.err = false ∧
      (withRsp .idle .opn .opn false 0#32 1#32).sch.req.valid = false ∧
      (withRsp .idle .opn .opn false 0#32 1#32).sch.ownA = false ∧
      look (fun t => t.faults)
          (exec (.openOk 16#32)
            { State.reset with sch := { (withRsp .idle .opn .opn false 0#32 1#32).sch with ownA := true } }) =
        some 0x001#10 := by decide

theorem witness_OpenFailHaltsWithoutAClose :
    (withRsp .idle .opn .opn true 0#32 0#32).sch.sound = true ∧
      (withRsp .idle .opn .opn true 0#32 0#32).sch.ph = .opn ∧
      (withRsp .idle .opn .opn true 0#32 0#32).sch.rsp.valid = true ∧
      (withRsp .idle .opn .opn true 0#32 0#32).sch.rsp.op = .opn ∧
      (withRsp .idle .opn .opn true 0#32 0#32).sch.rsp.err = true := by decide

/-- Both clauses: a read error, and no bytes. -/
theorem witness_PrimeErrAndPrimeEmptyHaltAndRequestClose :
    (∀ e, (withRsp .idle .prime .read e 0#32 0#32).sch.sound = true ∧
        (withRsp .idle .prime .read e 0#32 0#32).sch.ph = .prime ∧
        (withRsp .idle .prime .read e 0#32 0#32).sch.rsp.valid = true ∧
        (withRsp .idle .prime .read e 0#32 0#32).sch.rsp.op = .read ∧
        (withRsp .idle .prime .read e 0#32 0#32).sch.req.valid = false ∧
        (withRsp .idle .prime .read e 0#32 0#32).sch.rsp.err = e ∧
        (withRsp .idle .prime .read e 0#32 0#32).sch.rsp.bytes = 0#32) := by decide

/-- 1 and 3 bytes, the ends of the range. -/
theorem witness_PrimeShortReadsBufferAAgain :
    ∀ b ∈ [1#32, 3#32], (withRsp .idle .prime .read false b 0#32).sch.sound = true ∧
      (withRsp .idle .prime .read false b 0#32).sch.ph = .prime ∧
      (withRsp .idle .prime .read false b 0#32).sch.rsp.valid = true ∧
      (withRsp .idle .prime .read false b 0#32).sch.rsp.op = .read ∧
      (withRsp .idle .prime .read false b 0#32).sch.rsp.err = false ∧
      1 ≤ (withRsp .idle .prime .read false b 0#32).sch.rsp.bytes.toNat ∧
      (withRsp .idle .prime .read false b 0#32).sch.rsp.bytes.toNat ≤ 3 ∧
      (withRsp .idle .prime .read false b 0#32).sch.req.valid = false ∧
      (withRsp .idle .prime .read false b 0#32).sch.ownA = false := by
  intro b hb
  rcases List.mem_cons.1 hb with rfl | hb
  · refine ⟨?_, ?_, ?_, ?_, ?_, ?_, ?_, ?_, ?_⟩ <;> decide
  · rcases List.mem_singleton.1 hb with rfl
    refine ⟨?_, ?_, ?_, ?_, ?_, ?_, ?_, ?_, ?_⟩ <;> decide

/-- 4 and 16 bytes, the ends of the range under PS16. -/
theorem witness_PrimeIssueStartsTheFirstTransfer :
    ∀ b ∈ [4#32, 16#32], (withRsp .idle .prime .read false b 0#32).sch.sound = true ∧
      (withRsp .idle .prime .read false b 0#32).sch.ph = .prime ∧
      (withRsp .idle .prime .read false b 0#32).sch.rsp.valid = true ∧
      (withRsp .idle .prime .read false b 0#32).sch.rsp.op = .read ∧
      (withRsp .idle .prime .read false b 0#32).sch.rsp.err = false ∧
      4 ≤ (withRsp .idle .prime .read false b 0#32).sch.rsp.bytes.toNat ∧
      (withRsp .idle .prime .read false b 0#32).sch.rsp.bytes.toNat ≤ State.reset.params.bufferSize.toNat ∧
      (withRsp .idle .prime .read false b 0#32).dma.busy = false ∧
      (withRsp .idle .prime .read false b 0#32).sch.ownA = false := by
  intro b hb
  rcases List.mem_cons.1 hb with rfl | hb
  · refine ⟨?_, ?_, ?_, ?_, ?_, ?_, ?_, ?_, ?_⟩ <;> decide
  · rcases List.mem_singleton.1 hb with rfl
    refine ⟨?_, ?_, ?_, ?_, ?_, ?_, ?_, ?_, ?_⟩ <;> decide

/-- Both states the guard names, and the clause of an owned buffer. -/
theorem witness_FillReqRequestsTheFillableBuffer :
    (∀ st ∈ [St.primed, St.streaming], (moving st .issued 2#32).sch.sound = true ∧
        (moving st .issued 2#32).sch.ph = .issued ∧ (moving st .issued 2#32).sch.st = st ∧
        (moving st .issued 2#32).sch.req.valid = false ∧ (moving st .issued 2#32).sch.rsp.valid = false ∧
        Buf.b ≠ (moving st .issued 2#32).sch.active ∧ (moving st .issued 2#32).sch.own .b = false) ∧
      { (moving .primed .issued 2#32).sch with ownB := true }.own .b = true ∧
      { (moving .primed .issued 2#32).sch with ownB := true }.sound = true := by decide

/-- Both clauses: a read error, and no bytes. -/
theorem witness_FillErrAndFillEosEndTheSessionAndRequestClose :
    ∀ e, ((moving .streaming .fill 2#32).respond .read e 0#32 0#32).sch.sound = true ∧
      ((moving .streaming .fill 2#32).respond .read e 0#32 0#32).sch.ph = .fill ∧
      ((moving .streaming .fill 2#32).respond .read e 0#32 0#32).sch.rsp.valid = true ∧
      ((moving .streaming .fill 2#32).respond .read e 0#32 0#32).sch.rsp.op = .read ∧
      ((moving .streaming .fill 2#32).respond .read e 0#32 0#32).sch.req.valid = false ∧
      ((moving .streaming .fill 2#32).respond .read e 0#32 0#32).sch.rsp.err = e ∧
      ((moving .streaming .fill 2#32).respond .read e 0#32 0#32).sch.rsp.bytes = 0#32 ∧
      Buf.b ≠ ((moving .streaming .fill 2#32).respond .read e 0#32 0#32).sch.active := by decide

/-- 1 and 3 bytes, the ends of the range. -/
theorem witness_FillShortReadsTheSameBufferAgain :
    ∀ b ∈ [1#32, 3#32], ((moving .streaming .fill 2#32).respond .read false b 0#32).sch.sound = true ∧
      ((moving .streaming .fill 2#32).respond .read false b 0#32).sch.ph = .fill ∧
      ((moving .streaming .fill 2#32).respond .read false b 0#32).sch.rsp.valid = true ∧
      ((moving .streaming .fill 2#32).respond .read false b 0#32).sch.rsp.op = .read ∧
      ((moving .streaming .fill 2#32).respond .read false b 0#32).sch.rsp.err = false ∧
      1 ≤ ((moving .streaming .fill 2#32).respond .read false b 0#32).sch.rsp.bytes.toNat ∧
      ((moving .streaming .fill 2#32).respond .read false b 0#32).sch.rsp.bytes.toNat ≤ 3 ∧
      ((moving .streaming .fill 2#32).respond .read false b 0#32).sch.req.valid = false ∧
      Buf.b ≠ ((moving .streaming .fill 2#32).respond .read false b 0#32).sch.active ∧
      ((moving .streaming .fill 2#32).respond .read false b 0#32).sch.own .b = false := by
  intro b hb
  rcases List.mem_cons.1 hb with rfl | hb
  · refine ⟨?_, ?_, ?_, ?_, ?_, ?_, ?_, ?_, ?_, ?_⟩ <;> decide
  · rcases List.mem_singleton.1 hb with rfl
    refine ⟨?_, ?_, ?_, ?_, ?_, ?_, ?_, ?_, ?_, ?_⟩ <;> decide

theorem witness_FillOkHoldsTheFilledBuffer :
    ((moving .streaming .fill 2#32).respond .read false 4#32 0#32).sch.sound = true ∧
      ((moving .streaming .fill 2#32).respond .read false 4#32 0#32).sch.ph = .fill ∧
      ((moving .streaming .fill 2#32).respond .read false 4#32 0#32).sch.rsp.valid = true ∧
      ((moving .streaming .fill 2#32).respond .read false 4#32 0#32).sch.rsp.op = .read ∧
      ((moving .streaming .fill 2#32).respond .read false 4#32 0#32).sch.rsp.err = false ∧
      4 ≤ ((moving .streaming .fill 2#32).respond .read false 4#32 0#32).sch.rsp.bytes.toNat ∧
      Buf.b ≠ ((moving .streaming .fill 2#32).respond .read false 4#32 0#32).sch.active := by decide

theorem witness_WaitIssueReleasesIssuesAndFlips :
    waiting.sch.sound = true ∧ waiting.sch.ph = .wait ∧ waiting.dma.done = true ∧ waiting.dma.busy = false ∧
      waiting.sch.pendWords ≠ 0#32 ∧ waiting.sch.pendWords.toNat ≤ waiting.params.bufferSize.toNat / 4 ∧
      Buf.b ≠ waiting.sch.active ∧ waiting.sch.own .b = false := by decide

theorem witness_CloseDoneReleasesTheHandle :
    ∀ st ∈ [St.done, St.halted], (withRsp st .close .close false 0#32 0#32).sch.sound = true ∧
      (withRsp st .close .close false 0#32 0#32).sch.ph = .close ∧
      (withRsp st .close .close false 0#32 0#32).sch.rsp.valid = true ∧
      (withRsp st .close .close false 0#32 0#32).sch.rsp.op = .close := by decide

/-- The first and the last offset. -/
theorem witness_HostWriteOnlySetsStartPend :
    ∀ o ∈ [0x00#8, 0x1C#8], o.toNat < 0x20 ∧ o.toNat % 4 = 0 := by decide

/-- Where the two clauses meet: 0x1F and 0x20. -/
theorem witness_HostActionsAtOtherOffsets :
    (∀ o ∈ [0x01#8, 0x1F#8], o.toNat < 0x20 ∧ o.toNat % 4 ≠ 0) ∧ ∀ o ∈ [0x20#8, 0xFF#8], 0x20 ≤ o.toNat := by decide

theorem witness_StatusFields : State.reset.sch.sound = true := by decide

/-- The four clauses: a word read, an unwritten byte, an idle channel, a full queue. -/
theorem witness_DmaMoveMovesOneWord :
    ((moving .primed .issued 2#32).dma.busy = true ∧
        (moving .primed .issued 2#32).soe.q.length < (moving .primed .issued 2#32).params.queueDepth ∧
        memRead Params.ps16 bytesA (moving .primed .issued 2#32).dma.readAddr = .ok 0x03020100#32) ∧
      memRead Params.ps16 [] (moving .primed .issued 2#32).dma.readAddr = .error .unwrittenRead ∧
      State.reset.dma.busy = false ∧ Params.ps16.queueDepth ≤ [0#32, 0#32, 0#32, 0#32].length := by
  refine ⟨⟨?_, ?_, ?_⟩, ?_, ?_, ?_⟩ <;> first | rfl | decide

theorem witness_SoeEmitShiftsOutTheHead :
    ({ State.reset.soe with q := [1#32, 2#32] }.q = 1#32 :: [2#32]) ∧ State.reset.soe.q = [] := by decide

theorem witness_SrcOpenRspAnswersOpen :
    (withReq .idle .opn .opn .a 0#32).sch.req.valid = true ∧ (withReq .idle .opn .opn .a 0#32).sch.req.op = .opn ∧
      (withReq .idle .opn .opn .a 0#32).sch.rsp.valid = false := by decide

/-- The three clauses: 0 and 16 bytes inside the contract; 17 bytes, and an error with a byte; an owned buffer. -/
theorem witness_SrcReadRspFillsTheRequestedBuffer :
    filling.sch.req.valid = true ∧ filling.sch.req.op = .read ∧ filling.sch.rsp.valid = false ∧
      (0#32).toNat ≤ filling.sch.req.len.toNat ∧ (16#32).toNat ≤ filling.sch.req.len.toNat ∧
      filling.sch.req.len.toNat ≤ filling.params.bufferSize.toNat ∧ (true = true → 0#32 = 0#32) ∧
      filling.sch.own filling.sch.req.buf = false ∧ filling.sch.req.len.toNat < (17#32).toNat ∧ 1#32 ≠ 0#32 ∧
      { filling.sch with ownB := true }.own filling.sch.req.buf = true := by decide

theorem witness_SrcCloseRspAcknowledgesClose :
    (withReq .done .close .close .a 0#32).sch.req.valid = true ∧
      (withReq .done .close .close .a 0#32).sch.req.op = .close ∧
      (withReq .done .close .close .a 0#32).sch.rsp.valid = false := by decide

/-- Refused: a size of 0, 2 or 6, an unaligned base, no queue, overlapping buffers, the queue port in the last word of a
buffer, a region that wraps. Admitted: a size of 4, the queue port just past a buffer, a region that ends at `2^32`. -/
theorem witness_ConfigurationGivesThePowerOnState :
    { Params.ps16 with bufferSize := 0#32 }.valid = false ∧ { Params.ps16 with bufferSize := 2#32 }.valid = false ∧
      { Params.ps16 with bufferSize := 6#32 }.valid = false ∧
      { Params.ps16 with baseA := 0x20000002#32, baseB := 0x20000100#32 }.valid = false ∧
      { Params.ps16 with queueDepth := 0 }.valid = false ∧
      { Params.ps16 with baseB := 0x2000000C#32 }.valid = false ∧
      { Params.ps16 with txfAddr := 0x2000001C#32 }.valid = false ∧
      { Params.ps16 with baseB := 0xFFFFFFF4#32 }.valid = false ∧
      { Params.ps16 with bufferSize := 4#32 }.valid = true ∧
      { Params.ps16 with txfAddr := 0x20000020#32 }.valid = true ∧
      { Params.ps16 with baseB := 0xFFFFFFF0#32 }.valid = true := by
  refine ⟨?_, ?_, ?_, ?_, ?_, ?_, ?_, ?_, ?_, ?_, ?_⟩ <;> rfl

theorem witness_NoStepChangesAParameter : ∃ t, step (State.reset.withFetchWord 64 0x0000000100000040) = .next t :=
  ⟨_, rfl⟩

theorem witness_AtMostOneSchedulerActionIsEnabled :
    isSchedulerAction (.waitIssue .a 0#32) = true ∧ isSchedulerAction (.waitIssue .b 1#32) = true ∧
      enabled (.waitIssue .a 0#32) waiting = true ∧ enabled (.waitIssue .b 1#32) waiting = true := by decide

theorem witness_StopHasNoSchedulerAction :
    (inPhase .done .stop).sch.ph = .stop ∧ isSchedulerAction .closeDone = true ∧ Instr.closeDone ≠ .reset ∧
      (∃ t, exec .closeDone (inPhase .done .stop) = .next t) ∧
      ∃ t, exec (.hostWrite 0#8 1#32) (inPhase .done .stop) = .next t :=
  ⟨by decide, by decide, by decide, ⟨_, rfl⟩, _, rfl⟩

theorem witness_TerminalStatesAbsorb :
    ∀ st ∈ [St.done, St.halted], ((moving st .stop 2#32).sch.st = .done ∨ (moving st .stop 2#32).sch.st = .halted) ∧
      look (fun t => t.soe.q.length) (exec (.dmaMove .a 0#32) (moving st .stop 2#32)) = some 1 := by decide

/-- Each of the five transitions sets `CAUSE`. -/
theorem witness_ASessionEndsInOneOfFiveWays :
    look (fun t => t.sch.cause) (exec .openFail (withRsp .idle .opn .opn true 0#32 0#32)) = some .sourceOpenError ∧
      look (fun t => t.sch.cause) (exec .primeEmpty (withRsp .idle .prime .read false 0#32 0#32)) = some .emptySource ∧
      look (fun t => t.sch.cause) (exec .primeErr (withRsp .idle .prime .read true 0#32 0#32)) = some .sourceReadError ∧
      look (fun t => t.sch.cause)
        (exec (.fillErr .b) ((moving .streaming .fill 2#32).respond .read true 0#32 0#32)) = some .sourceReadError ∧
      look (fun t => t.sch.cause)
        (exec (.fillEos .b) ((moving .streaming .fill 2#32).respond .read false 0#32 0#32)) = some .endOfSource := by
  decide

/-- The last move of a transfer: the channel changes and `BUSY` falls. -/
theorem witness_TheChannelIsNeverCancelled :
    (moving .primed .issued 1#32).dma.busy = true ∧
      look (fun t => (t.dma.busy, decide (t.dma = (moving .primed .issued 1#32).dma)))
        (exec (.dmaMove .a 0#32) (moving .primed .issued 1#32)) = some (false, false) := by decide

/-- A transfer counted and a pending count written. -/
theorem witness_WordCountsAreThoseOfTheReads :
    look (fun t => t.sch.xferCount) (exec (.primeIssue 1#32) (withRsp .idle .prime .read false 4#32 0#32)) = some 1#32 ∧
      look (fun t => t.sch.pendWords)
        (exec (.fillOk .b 4#32) ((moving .streaming .fill 2#32).respond .read false 4#32 0#32)) = some 1#32 := by decide

theorem witness_EmitAndMoveCommute :
    ∃ a b c d,
      exec (.soeEmit 0#32) { moving .primed .issued 2#32 with soe := { State.reset.soe with q := [9#32] } } = .next a ∧
        exec (.dmaMove .a 0#32) a = .next b ∧
        exec (.dmaMove .a 0#32) { moving .primed .issued 2#32 with soe := { State.reset.soe with q := [9#32] } } =
          .next c ∧
        exec (.soeEmit 0#32) c = .next d :=
  ⟨_, _, _, _, rfl, rfl, rfl, rfl⟩

theorem witness_FinalStatesAreQuiescent : (inPhase .halted .stop).final :=
  ⟨by decide, by decide, by decide, by decide, by decide, by decide, by decide⟩

/-- The invariant in mid-session, and a step from there. -/
theorem witness_EveryStepKeepsTheInvariant : filling.Inv ∧ ∃ t, step filling = .next t := ⟨filling_inv, _, rfl⟩

/-- An answer that breaks the contract changes the state without a record. -/
theorem witness_OnlyTheSourceCanCauseAFault :
    filling.Inv ∧ Instr.srcReadRsp .b false 17#32 ≠ .reset ∧
      look (fun t => (decide (t = filling), decide (t.trace = filling.trace)))
        (exec (.srcReadRsp .b false 17#32) filling) = some (false, true) :=
  ⟨filling_inv, by decide, by decide⟩

/-- A read answer of B while A is in flight. -/
theorem witness_TheInFlightBufferIsNeverWritten :
    filling.Inv ∧ Instr.srcReadRsp .b false 0#32 ≠ .reset ∧ filling.dma.busy = true ∧
      (∃ t, exec (.srcReadRsp .b false 0#32) filling = .next t) ∧ filling.sch.req.valid = true ∧
      filling.sch.req.op = .read :=
  ⟨filling_inv, by decide, by decide, ⟨_, rfl⟩, by decide, by decide⟩

theorem witness_TheRetriggerNeedsNoSourceRead :
    waiting.Inv ∧ waiting.sch.ph = .wait ∧ waiting.dma.done = true := ⟨waiting_inv, by decide, by decide⟩

/-- One word moved and not yet emitted, with a turn scheduled. -/
def oneWordMoved : State :=
  { filling with
    soe := { State.reset.soe with q := [0x03020100#32] }
    trace := [0x00000000000000F0#64, 0x0302010000000050#64] }

theorem witness_EveryStepKeepsTheOutputOrder : oneWordMoved.fifo ∧ ∃ t, step oneWordMoved = .next t :=
  ⟨by decide, _, rfl⟩

theorem witness_NoStepProducesAnInvalidRecord : oneWordMoved.traceValid ∧ ∃ t, step oneWordMoved = .next t := by
  refine ⟨fun r hr => ?_, _, rfl⟩
  rcases List.mem_cons.1 hr with rfl | hr
  · decide
  · rcases List.mem_singleton.1 hr with rfl
    decide

theorem witness_MemoryStaysCanonical : filling.bufmem.wf ∧ ∃ t, step filling = .next t := ⟨by decide, _, rfl⟩

end Sys2Proof.Tests
end

section
/-! Scope (00_scope.md): no action and no step stops the machine, and no step changes a parameter. -/

namespace Sys2Proof.Machine

/-! ### What a turn can do -/

/-- The form of a turn: it is one action, or it leaves the state, refuses an input, or raises one fault. Claims about every
turn start here and go on with `exec_cases` or `exec_next`. -/
theorem takeTurn_forms (τ : Turn) (s : State) :
    (∃ i, takeTurn τ s = exec i s) ∨ takeTurn τ s = .next s ∨ takeTurn τ s = .next s.refuse ∨
      takeTurn τ s = .next (s.raise .srcContract) := by
  cases τ with
  | action r =>
    cases hr : decode r with
    | some i => exact .inl ⟨i, by simp [takeTurn, takeRecord, hr]⟩
    | none => exact .inr (.inr (.inl (by simp [takeTurn, takeRecord, hr])))
  | hostAccess acc =>
    simp only [takeTurn, takeHostAccess]
    split
    · exact .inr (.inl rfl)
    · split
      · exact .inr (.inr (.inl rfl))
      · split
        · exact .inl ⟨_, rfl⟩
        · exact .inl ⟨_, rfl⟩
  | response w0 w1 w2 =>
    simp only [takeTurn, takeResponse]
    split
    · exact .inl ⟨_, rfl⟩
    · exact .inl ⟨_, rfl⟩
    · exact .inl ⟨_, rfl⟩
    · by_cases hc : s.sch.req.valid = true ∧ s.sch.rsp.valid = false
      · exact .inr (.inr (.inr (attempt_error hc .srcContract)))
      · exact .inr (.inl (attempt_hold hc _))

/-! ### Every action and every step answers a next state -/

/-- R89: a host access answers, whatever its offset. -/
theorem hostAccessed_next (s : State) (ofs : BitVec 8) (u : State) : ∃ t, hostAccessed s ofs u = .next t := by
  unfold hostAccessed
  split
  · exact ⟨s, rfl⟩
  · split
    · exact ⟨s.refuse, rfl⟩
    · exact ⟨u, rfl⟩

/-- R122, R123: the Serial Output Engine answers whether or not its queue is empty. -/
theorem execSoeEmit_next (s : State) : ∃ t, execSoeEmit s = .next t := by
  unfold execSoeEmit
  split
  · exact ⟨s, rfl⟩
  · exact ⟨_, rfl⟩

/-- Every action answers because the shape of its step does: the scheduler's (`schStep_next`), a step with a guard
(`attempt_next`), a host access, the emission of a word, or the reset. -/
theorem exec_next (i : Instr) (s : State) : ∃ t, exec i s = .next t := by
  cases i with
  | startOpen | openOk _ | openFail | primeErr | primeEmpty | primeShort _ | primeIssue _ | fillReq _ _ | fillErr _
  | fillEos _ | fillShort _ _ | fillOk _ _ | waitIssue _ _ | closeDone => exact schStep_next s _ _
  | hostWrite ofs _ | hostRead ofs _ => exact hostAccessed_next s ofs _
  | dmaMove _ _ | srcOpenRsp _ _ | srcReadRsp _ _ _ | srcCloseRsp => exact attempt_next s _ _
  | soeEmit _ => exact execSoeEmit_next s
  | reset => exact ⟨_, rfl⟩

theorem takeTurn_next (τ : Turn) (s : State) : ∃ t, takeTurn τ s = .next t := by
  rcases takeTurn_forms τ s with ⟨i, h⟩ | h | h | h
  · exact h ▸ exec_next i s
  · exact ⟨s, h⟩
  · exact ⟨s.refuse, h⟩
  · exact ⟨_, h⟩

/-! ### No step changes a parameter -/

variable {s t : State}

/-- R140: a write to a host register leaves the parameters. -/
@[simp] theorem State.hostStore_params (s : State) (ofs : BitVec 8) (v : Word) :
    (s.hostStore ofs v).params = s.params := by
  unfold State.hostStore
  split <;> rfl

/-- R6: no effect of an action writes a parameter; each names the fields it updates, and the reset (R230) rebuilds the state
for the parameters it had. -/
theorem Effect.params_eq {i : Instr} (h : Effect i s t) : t.params = s.params := by
  cases i with
  | startOpen | openFail | fillOk _ _ | closeDone | srcOpenRsp _ _ | srcCloseRsp =>
    obtain ⟨_, rfl⟩ := h
    rfl
  | primeErr | primeEmpty | fillReq _ _ | fillErr _ | fillEos _ | hostRead _ _ =>
    obtain ⟨_, _, rfl⟩ := h
    rfl
  | openOk _ | primeShort _ | fillShort _ _ =>
    obtain ⟨_, _, _, rfl⟩ := h
    rfl
  | waitIssue _ _ =>
    obtain ⟨_, _, _, _, rfl⟩ := h
    rfl
  | primeIssue _ =>
    obtain ⟨_, _, _, _, _, rfl⟩ := h
    rfl
  | hostWrite ofs v =>
    obtain ⟨_, _, rfl⟩ := h
    exact State.hostStore_params s ofs v
  | dmaMove _ _ =>
    obtain ⟨_, w, _, rfl⟩ := h
    rfl
  | soeEmit _ =>
    obtain ⟨w, q, _, rfl⟩ := h
    rfl
  | srcReadRsp _ _ _ =>
    obtain ⟨_, _, _, _, m, _, rfl⟩ := h
    rfl
  | reset =>
    cases h
    rfl

theorem exec_params (i : Instr) (h : exec i s = .next t) : t.params = s.params := by
  rcases exec_cases i h with rfl | rfl | ⟨f, rfl⟩ | h
  · rfl
  · exact s.refuse_params
  · exact s.raise_params f
  · exact h.params_eq

theorem takeTurn_params (τ : Turn) (h : takeTurn τ s = .next t) : t.params = s.params := by
  rcases takeTurn_forms τ s with ⟨i, hi⟩ | hi | hi | hi <;> rw [hi] at h
  · exact exec_params i h
  · cases h
    rfl
  · cases h
    exact s.refuse_params
  · cases h
    exact s.raise_params _

/-! ### The obligations -/

/-- Settles O10: every action answers by the shape of its step, and a step is a turn, which is an action or answers at
once. -/
theorem everyActionAndEveryStepAnswersANextState : Obligations.EveryActionAndEveryStepAnswersANextState :=
  ⟨exec_next, fun s => takeTurn_next s.nextTurn s.afterTurn⟩

/-- Settles O44: a turn keeps the parameters, and so does taking it off the schedule. -/
theorem noStepChangesAParameter : Obligations.NoStepChangesAParameter := by
  intro s t h
  calc t.params = s.afterTurn.params := takeTurn_params s.nextTurn h
    _ = s.params := s.afterTurn_params

end Sys2Proof.Machine
end

section
/-! Refused inputs (10_state.md R49): only `RESET` clears `REFUSED`. -/

namespace Sys2Proof.Machine

variable {s t : State}

/-- R140: a host write leaves the state, or it is the start command in `(IDLE, READY)`. -/
theorem State.hostStore_cases (s : State) (ofs : BitVec 8) (v : Word) :
    s.hostStore ofs v = s ∨
      (s.sch.st = .idle ∧ s.sch.ph = .ready ∧
        s.hostStore ofs v = { s with sch := { s.sch with startPend := true } }) := by
  unfold State.hostStore
  split
  · rename_i hc
    obtain ⟨_, _, hst, hph⟩ := hc
    exact .inr ⟨hst, hph, rfl⟩
  · exact .inl rfl

/-- R49, R208: no effect but that of `RESET` writes one of the marks. -/
theorem Effect.marks_eq {i : Instr} (hi : i ≠ .reset) (h : Effect i s t) :
    t.faults = s.faults ∧ t.refused = s.refused := by
  cases i with
  | startOpen | openFail | fillOk _ _ | closeDone | srcOpenRsp _ _ | srcCloseRsp =>
    obtain ⟨_, rfl⟩ := h
    exact ⟨rfl, rfl⟩
  | primeErr | primeEmpty | fillReq _ _ | fillErr _ | fillEos _ | hostRead _ _ =>
    obtain ⟨_, _, rfl⟩ := h
    exact ⟨rfl, rfl⟩
  | openOk _ | primeShort _ | fillShort _ _ =>
    obtain ⟨_, _, _, rfl⟩ := h
    exact ⟨rfl, rfl⟩
  | waitIssue _ _ =>
    obtain ⟨_, _, _, _, rfl⟩ := h
    exact ⟨rfl, rfl⟩
  | primeIssue _ =>
    obtain ⟨_, _, _, _, _, rfl⟩ := h
    exact ⟨rfl, rfl⟩
  | hostWrite ofs v =>
    obtain ⟨_, _, rfl⟩ := h
    rcases s.hostStore_cases ofs v with hw | ⟨_, _, hw⟩ <;> rw [hw] <;> exact ⟨rfl, rfl⟩
  | dmaMove _ _ =>
    obtain ⟨_, w, _, rfl⟩ := h
    exact ⟨rfl, rfl⟩
  | soeEmit _ =>
    obtain ⟨w, q, _, rfl⟩ := h
    exact ⟨rfl, rfl⟩
  | srcReadRsp _ _ _ =>
    obtain ⟨_, _, _, _, m, _, rfl⟩ := h
    exact ⟨rfl, rfl⟩
  | reset => exact absurd rfl hi

/-- R49: an action but `RESET` leaves `REFUSED` or sets it. -/
theorem exec_refused_of_refused {i : Instr} (hi : i ≠ .reset) (h : exec i s = .next t) (hr : s.refused = true) :
    t.refused = true := by
  rcases exec_cases i h with rfl | rfl | ⟨f, rfl⟩ | h
  · exact hr
  · exact s.refuse_refused
  · exact hr
  · exact (h.marks_eq hi).2.trans hr

/-- R183: a refused input keeps a run from its end. -/
theorem State.not_final_of_refused (hr : s.refused = true) : ¬s.final := by
  rintro ⟨_, _, _, _, _, _, hf⟩
  exact Bool.noConfusion (hf.symm.trans hr)

/-- Settles O14: the marks are kept by every effect but that of `RESET`, whose state R47 fixes. -/
theorem onlyResetClearsRefused : Obligations.OnlyResetClearsRefused := by
  intro i s t hr h
  constructor
  · intro hi
    have ht := exec_refused_of_refused hi h hr
    exact ⟨ht, State.not_final_of_refused ht⟩
  · rintro rfl
    cases h
    rfl

end Sys2Proof.Machine
end

section
/-! The guards (00_scope.md R12): an action is enabled exactly where its `await` clause is met, and changes nothing where
it is not enabled. -/

namespace Sys2Proof.Machine

variable {s : State}

/-! ### An action that is not enabled holds -/

/-- R12: a scheduler step in a sound state holds where the guard `enabled` computes is false. -/
theorem schStep_hold_of_not_enabled {c : Prop} [Decidable c] (hs : s.sch.sound = true)
    (he : (s.sch.sound && decide c) = false) (r : Except Fault State) : schStep s c r = .next s := by
  have hc : ¬c := by simpa [hs] using he
  exact schStep_hold hs hc r

/-- R12: a step of another agent holds where the guard `enabled` computes is false. -/
theorem attempt_hold_of_not_enabled {c : Prop} [Decidable c] (he : decide c = false) (r : Except Fault State) :
    attempt s c r = .next s :=
  attempt_hold (of_decide_eq_false he) r

/-- R122: with an empty queue the Serial Output Engine stalls. -/
theorem execSoeEmit_hold (hq : s.soe.q = []) : execSoeEmit s = .next s := by simp [execSoeEmit, hq, queuePop]

/-- R12, R181: an action that is not enabled changes nothing. -/
theorem exec_hold_of_not_enabled {i : Instr} (he : enabled i s = false)
    (hs : isSchedulerAction i = true → s.sch.sound = true) : exec i s = .next s := by
  cases i with
  | startOpen | openOk _ | openFail | primeErr | primeEmpty | primeShort _ | primeIssue _ | fillReq _ _ | fillErr _
  | fillEos _ | fillShort _ _ | fillOk _ _ | waitIssue _ _ | closeDone =>
    exact schStep_hold_of_not_enabled (hs rfl) he _
  | dmaMove _ _ | srcOpenRsp _ _ | srcReadRsp _ _ _ | srcCloseRsp => exact attempt_hold_of_not_enabled he _
  | soeEmit _ =>
    have hq : s.soe.q = [] := by simpa [enabled] using he
    exact execSoeEmit_hold hq
  | hostWrite _ _ | hostRead _ _ | reset => exact absurd he (by simp [enabled])

/-- Settles O11: a hold by the shape of the action's step; and each guard read as its `await` clause, in the numbers of
the byte count where it asks for one. -/
theorem disabledActionsHold : Obligations.DisabledActionsHold := by
  refine ⟨fun i s => exec_hold_of_not_enabled, fun i s => ?_⟩
  cases i with
  | startOpen | openOk _ | openFail | primeErr | fillReq _ _ | fillErr _ | waitIssue _ _ | closeDone | dmaMove _ _
  | soeEmit _ | srcOpenRsp _ _ | srcReadRsp _ _ _ | srcCloseRsp | hostWrite _ _ | hostRead _ _ | reset =>
    simp [enabled, isSchedulerAction, agentOf]
  | primeEmpty | fillEos _ => simp [enabled, isSchedulerAction, agentOf, BitVec.toNat_eq]
  | primeShort _ | primeIssue _ | fillShort _ _ | fillOk _ _ =>
    simp [enabled, isSchedulerAction, agentOf, BitVec.le_def]

end Sys2Proof.Machine
end

section
/-! Facts the invariant is kept by: where the buffers lie (00_scope.md R6, R7), which bytes are written (20_memory.md
R64), and the words of a byte count (30_encoding.md R100). -/

namespace Sys2Proof.Machine

/-! ### The buffer regions -/

/-- R6: a buffer begins at a multiple of 4. -/
theorem bufBase_aligned (p : ValidParams) (i : Buf) : (bufBase p.toParams i).toNat % 4 = 0 := by
  have hp := p.ok
  simp only [Params.valid, Bool.and_eq_true, beq_iff_eq] at hp
  cases i <;> simp [bufBase, hp]

/-- R7: a buffer does not wrap past the top of the bus space. -/
theorem bufBase_add_bufferSize_le (p : ValidParams) (i : Buf) :
    (bufBase p.toParams i).toNat + p.bufferSize.toNat ≤ 4294967296 := by
  have hp := p.ok
  simp only [Params.valid, Bool.and_eq_true, decide_eq_true_eq] at hp
  cases i <;> simp [bufBase, hp]

/-- R63, R64: a range inside the region of one buffer is inside the buffers. -/
theorem inBuffer_of_mem_region {p : Params} (i : Buf) {a n : Nat} (hlo : (bufBase p i).toNat ≤ a)
    (hhi : a + n ≤ (bufBase p i).toNat + p.bufferSize.toNat) : inBuffer p a n = true := by
  cases i <;> simp_all [inBuffer, bufBase]

/-! ### Written bytes -/

/-- The bytes of a part of a written range are written. -/
theorem Memory.filled_sub {m : Memory} {a b n k : Nat} (h : m.filled a n) (hlo : a ≤ b) (hhi : b + k ≤ a + n) :
    m.filled b k := by
  intro j hj
  have := h (b + j - a) (by omega)
  rwa [show a + (b + j - a) = b + j by omega] at this

/-- R64: a block write leaves its block written. -/
theorem memWriteAll_filled {p : Params} {d : List Byte} {m m' : Memory} {a : Nat}
    (h : memWriteAll p m a d = .ok m') : m'.filled a d.length := by
  intro k hk
  simp [memWriteAll_read_inside h k hk, hk]

/-- R64: a block write leaves every written byte written. -/
theorem memWriteAll_keeps_filled {p : Params} {d : List Byte} {m m' : Memory} {a b n : Nat}
    (h : memWriteAll p m a d = .ok m') (hf : m.filled b n) : m'.filled b n := by
  intro k hk
  by_cases hin : a ≤ b + k ∧ b + k < a + d.length
  · have := memWriteAll_filled h (b + k - a) (by omega)
    rwa [show a + (b + k - a) = b + k by omega] at this
  · rw [memWriteAll_read_outside h (b + k) (by omega)]
    exact hf k hk

/-! ### Words and parity -/

/-- R100: `floor(b / 4)`. -/
theorem toNat_wordCount (b : Word) : (wordCount b).toNat = b.toNat / 4 := by
  simp [wordCount, Nat.shiftRight_eq_div_pow]

/-- R169: counting one transfer changes the parity of the count. -/
theorem getLsbD_zero_add_one (x : Word) : (x + 1#32).getLsbD 0 = !x.getLsbD 0 := by
  simp [BitVec.getElem_add]

/-! ### The eleven control pairs, phase by phase -/

section
variable {st : St}
theorem pairAllowed_opn : pairAllowed st .opn = true ↔ st = .idle := by cases st <;> decide
theorem pairAllowed_prime : pairAllowed st .prime = true ↔ st = .idle := by cases st <;> decide
theorem pairAllowed_issued : pairAllowed st .issued = true ↔ st = .primed ∨ st = .streaming := by cases st <;> decide
theorem pairAllowed_fill : pairAllowed st .fill = true ↔ st = .streaming := by cases st <;> decide
theorem pairAllowed_wait : pairAllowed st .wait = true ↔ st = .streaming := by cases st <;> decide
theorem pairAllowed_close : pairAllowed st .close = true ↔ st = .done ∨ st = .halted := by cases st <;> decide
theorem pairAllowed_stop : pairAllowed st .stop = true ↔ st = .done ∨ st = .halted := by cases st <;> decide
end

end Sys2Proof.Machine
end

section
/-! What the invariant says in a phase, and how its clauses are met after a transition. -/

namespace Sys2Proof.Machine

variable {s t : State}

/-! ### The control state -/

/-- R22, R205, R103: the three parts of a sound scheduler. -/
theorem Sch.sound_iff (c : Sch) :
    c.sound = true ↔ pairAllowed c.st c.ph = true ∧ c.cause.allowed = true ∧ c.msg.allowed = true := by
  simp [Sch.sound, and_assoc]

/-- A move to an allowed pair keeps a scheduler sound that keeps its cause and its message. -/
theorem Sch.sound_of_move {c d : Sch} (hs : c.sound = true) (hp : pairAllowed d.st d.ph = true)
    (hc : d.cause = c.cause) (hm : d.msg = c.msg) : d.sound = true := by
  obtain ⟨_, hca, hma⟩ := c.sound_iff.1 hs
  exact d.sound_iff.2 ⟨hp, hc ▸ hca, hm ▸ hma⟩

theorem State.Inv.pair (hs : s.Inv) : pairAllowed s.sch.st s.sch.ph = true := (s.sch.sound_iff.1 hs.control).1

theorem State.Inv.st_of_opn (hs : s.Inv) (hp : s.sch.ph = .opn) : s.sch.st = .idle := pairAllowed_opn.1 (hp ▸ hs.pair)

theorem State.Inv.st_of_prime (hs : s.Inv) (hp : s.sch.ph = .prime) : s.sch.st = .idle :=
  pairAllowed_prime.1 (hp ▸ hs.pair)

theorem State.Inv.st_of_fill (hs : s.Inv) (hp : s.sch.ph = .fill) : s.sch.st = .streaming :=
  pairAllowed_fill.1 (hp ▸ hs.pair)

theorem State.Inv.st_of_wait (hs : s.Inv) (hp : s.sch.ph = .wait) : s.sch.st = .streaming :=
  pairAllowed_wait.1 (hp ▸ hs.pair)

theorem State.Inv.st_of_close (hs : s.Inv) (hp : s.sch.ph = .close) : s.sch.st = .done ∨ s.sch.st = .halted :=
  pairAllowed_close.1 (hp ▸ hs.pair)

/-! ### Ownership and outcome by the control state -/

/-- R171: in `IDLE` nothing has been issued. -/
theorem State.Inv.neverIssued_of_idle (hs : s.Inv) (hst : s.sch.st = .idle) : s.neverIssued := by
  obtain ⟨hidle, _, _⟩ := hs.ownership
  exact hidle hst

/-- R171: in `PRIMED` and `STREAMING` a transfer has been issued. -/
theorem State.Inv.issuedOnce_of_live (hs : s.Inv) (hst : s.sch.st = .primed ∨ s.sch.st = .streaming) :
    s.issuedOnce := by
  obtain ⟨_, hlive, _⟩ := hs.ownership
  exact hlive (by tauto)

/-- R206: a session that runs on has reported nothing. -/
theorem State.Inv.console_of_running (hs : s.Inv) (hst : s.sch.st.terminal = false) : s.console = [] := by
  obtain ⟨hrun, _, _⟩ := hs.outcome
  obtain ⟨_, _, hcon⟩ := hrun hst
  exact hcon

/-! ### The source -/

/-- R142 to R180: the kind of request or response that the phase has outstanding, and the buffer it is for. -/
def State.awaited (s : State) : Option (SrcOp × Buf) :=
  match s.sch.ph with
  | .opn => some (.opn, .a)
  | .prime => some (.read, .a)
  | .fill => some (.read, s.fillable)
  | .close => some (.close, .a)
  | .ready | .issued | .wait | .stop => none

/-- The clause of the invariant about the source, with the phases told apart by what they await. -/
theorem State.sourcePhase_iff (s : State) :
    s.sourcePhase ↔
      (s.awaited = none → s.idleSource) ∧ ∀ op f, s.awaited = some (op, f) → s.awaiting op f := by
  unfold State.sourcePhase State.awaited
  cases s.sch.ph <;> simp

theorem State.sourcePhase_of_quiet (hw : t.awaited = none) (hi : t.idleSource) : t.sourcePhase :=
  t.sourcePhase_iff.2 ⟨fun _ => hi, by simp [hw]⟩

theorem State.sourcePhase_of_awaiting {op : SrcOp} {f : Buf} (hw : t.awaited = some (op, f)) (ha : t.awaiting op f) :
    t.sourcePhase := by
  refine t.sourcePhase_iff.2 ⟨by simp [hw], fun op' f' hw' => ?_⟩
  obtain ⟨rfl, rfl⟩ : op = op' ∧ f = f' := by simpa [hw] using hw'
  exact ha

/-- R190: a request just posted is what its phase awaits. -/
theorem State.sourcePhase_of_request {op : SrcOp} {f : Buf} (hw : t.awaited = some (op, f))
    (hv : t.sch.rsp.valid = false)
    (hr : t.sch.req.valid = true ∧ t.sch.req.op = op ∧ t.sch.req.buf = f ∧
      (op = .read → t.sch.req.len = t.params.bufferSize)) : t.sourcePhase := by
  obtain ⟨hq, hop, hbuf, hlen⟩ := hr
  exact State.sourcePhase_of_awaiting hw (.inl ⟨hq, hv, hop, hbuf, hlen⟩)

/-- R192 to R194: the phase whose request waits for an answer, and what it asked for. -/
theorem State.Inv.asked (hs : s.Inv) {op : SrcOp} (hc : canRespond s op) :
    ∃ f, s.awaited = some (op, f) ∧ s.sch.req.buf = f ∧ (op = .read → s.sch.req.len = s.params.bufferSize) := by
  obtain ⟨hq, rfl, hv⟩ := hc
  obtain ⟨hquiet, hawait⟩ := s.sourcePhase_iff.1 hs.source
  cases hw : s.awaited with
  | none => simp [hquiet hw] at hq
  | some e =>
    obtain ⟨op, f⟩ := e
    rcases hawait op f hw with ⟨_, _, rfl, hbuf, hlen⟩ | ⟨hq', _⟩
    · exact ⟨f, rfl, hbuf, hlen⟩
    · simp [hq'] at hq

/-- R78: where a phase has its answer, no request is outstanding. -/
theorem State.Inv.req_of_answered (hs : s.Inv) {op : SrcOp} {f : Buf} (hw : s.awaited = some (op, f))
    (hv : s.sch.rsp.valid = true) : s.sch.req.valid = false := by
  rcases (s.sourcePhase_iff.1 hs.source).2 op f hw with ⟨_, hv', _⟩ | ⟨hq, _⟩
  · simp [hv'] at hv
  · exact hq

/-- R193, R195: the answer to a read fits the buffer, and its bytes are written there. -/
theorem State.Inv.read_answer (hs : s.Inv) {f : Buf} (hw : s.awaited = some (.read, f)) (hv : s.sch.rsp.valid = true) :
    s.sch.rsp.bytes.toNat ≤ s.params.bufferSize.toNat ∧
      s.bufmem.filled (bufBase s.params.toParams f).toNat s.sch.rsp.bytes.toNat := by
  rcases (s.sourcePhase_iff.1 hs.source).2 .read f hw with ⟨_, hv', _⟩ | ⟨_, _, _, hread⟩
  · simp [hv'] at hv
  · obtain ⟨hle, _, hfill⟩ := hread rfl
    exact ⟨hle, hfill⟩

theorem State.awaited_of_opn (hp : s.sch.ph = .opn) : s.awaited = some (.opn, .a) := by simp [State.awaited, hp]
theorem State.awaited_of_prime (hp : s.sch.ph = .prime) : s.awaited = some (.read, .a) := by simp [State.awaited, hp]
theorem State.awaited_of_fill (hp : s.sch.ph = .fill) : s.awaited = some (.read, s.fillable) := by
  simp [State.awaited, hp]
theorem State.awaited_of_close (hp : s.sch.ph = .close) : s.awaited = some (.close, .a) := by simp [State.awaited, hp]

/-- R153, R160: a read is awaited in the prime and in the fill only, each for its own buffer. -/
theorem State.Inv.read_phase (hs : s.Inv) {f : Buf} (hw : s.awaited = some (.read, f)) :
    (s.sch.st = .idle ∧ s.sch.ph = .prime ∧ f = .a) ∨ (s.sch.st = .streaming ∧ s.sch.ph = .fill ∧ f = s.fillable) := by
  cases hp : s.sch.ph with
  | prime => exact .inl ⟨hs.st_of_prime hp, rfl, by simpa [State.awaited, hp] using hw.symm⟩
  | fill => exact .inr ⟨hs.st_of_fill hp, rfl, by simpa [State.awaited, hp] using hw.symm⟩
  | ready | opn | issued | wait | close | stop => simp [State.awaited, hp] at hw

/-- R171: the buffer of an outstanding read is the scheduler's. -/
theorem State.Inv.own_of_read (hs : s.Inv) {f : Buf} (hw : s.awaited = some (.read, f)) : s.sch.own f = false := by
  rcases hs.read_phase hw with ⟨hst, _, rfl⟩ | ⟨hst, _, rfl⟩
  · obtain ⟨hA, _⟩ := hs.neverIssued_of_idle hst
    exact hA
  · obtain ⟨⟨_, hfree⟩, _⟩ := hs.issuedOnce_of_live (.inr hst)
    exact hfree

/-- R82, R100: the words of an answer of 4 bytes or more fit the buffer and are written there. -/
theorem State.Inv.words_of_read (hs : s.Inv) {f : Buf} (hw : s.awaited = some (.read, f)) (hv : s.sch.rsp.valid = true)
    (hfour : 4#32 ≤ s.sch.rsp.bytes) :
    1 ≤ (wordCount s.sch.rsp.bytes).toNat ∧ 4 * (wordCount s.sch.rsp.bytes).toNat ≤ s.params.bufferSize.toNat ∧
      s.bufmem.filled (bufBase s.params.toParams f).toNat (4 * (wordCount s.sch.rsp.bytes).toNat) := by
  obtain ⟨hle, hfill⟩ := hs.read_answer hw hv
  have hfour : 4 ≤ s.sch.rsp.bytes.toNat := hfour
  rw [toNat_wordCount]
  exact ⟨by omega, by omega, Memory.filled_sub hfill (Nat.le_refl _) (by omega)⟩

/-! ### The other clauses -/

/-- R28: no word is pending outside `WAIT`. -/
theorem State.pending_iff_of_ne_wait (hp : s.sch.ph ≠ .wait) : s.pending ↔ s.sch.pendWords = 0#32 :=
  iff_of_eq (if_neg hp)

/-- R28, R254: the words pending in `WAIT` lie in the fillable buffer. -/
theorem State.pending_iff_of_wait (hp : s.sch.ph = .wait) :
    s.pending ↔ 1 ≤ s.sch.pendWords.toNat ∧ 4 * s.sch.pendWords.toNat ≤ s.params.bufferSize.toNat ∧
      s.bufmem.filled (bufBase s.params.toParams s.fillable).toNat (4 * s.sch.pendWords.toNat) :=
  iff_of_eq (if_pos hp)

/-- R28: a transition between two phases other than `WAIT` that leaves `PEND_WORDS` keeps it 0. -/
theorem State.Inv.pending_of_ne_wait (hs : s.Inv) (hp : s.sch.ph ≠ .wait) (hp' : t.sch.ph ≠ .wait)
    (hw : t.sch.pendWords = s.sch.pendWords) : t.pending :=
  (State.pending_iff_of_ne_wait hp').2 (hw.trans ((State.pending_iff_of_ne_wait hp).1 hs.pending))

/-- R200: a session that runs on has no cause, no message and an empty console. -/
theorem State.Inv.outcome_of_running (hs : s.Inv) (hst : s.sch.st.terminal = false) (hst' : t.sch.st.terminal = false)
    (hc : t.sch.cause = s.sch.cause) (hm : t.sch.msg = s.sch.msg) (hcon : t.console = s.console) : t.outcome := by
  refine ⟨fun _ => hc ▸ hm ▸ hcon ▸ hs.outcome.1 hst, fun h => ?_, fun h => ?_⟩ <;>
    simp [h, St.terminal] at hst'

/-- R26: the handle stays valid from phase to phase of a session with an open source. -/
theorem State.handleSound_of_open (hv : t.sch.hvalid = true)
    (hp : t.sch.ph ≠ .ready ∧ t.sch.ph ≠ .opn ∧ t.sch.ph ≠ .stop) : t.handleSound := by
  obtain ⟨h1, h2, h3⟩ := hp
  exact ⟨fun h => by simp [h1, h2, h3] at h, fun _ => hv⟩

theorem State.Inv.hvalid_of_read (hs : s.Inv) (hp : s.sch.ph = .prime ∨ s.sch.ph = .fill) : s.sch.hvalid = true :=
  hs.handle.2 (by tauto)

/-- R131, R82: a transfer just issued from a buffer whose words are written. -/
theorem State.transferSound_of_issue (haddr : t.dma.readAddr = bufBase t.params.toParams t.dma.buf)
    (hpos : 1 ≤ t.dma.count.toNat) (hle : 4 * t.dma.count.toNat ≤ t.params.bufferSize.toNat)
    (hf : t.bufmem.filled (bufBase t.params.toParams t.dma.buf).toNat (4 * t.dma.count.toNat)) : t.transferSound := by
  intro _
  rw [haddr]
  exact ⟨hpos, bufBase_aligned t.params t.dma.buf, Nat.le_refl _, Nat.add_le_add_left hle _, hf⟩

/-- R165: the buffer that was active is the scheduler's once `ACTIVE` has flipped to the other one. -/
theorem Sch.own_flip {c : Sch} {i : Buf} :
    ((c.setOwn i false).setOwn (otherBuf i) true).own (otherBuf (otherBuf i)) = false := by
  cases i <;> rfl

/-! ### What the invariant does not look at -/

theorem State.Inv.refuse (hs : s.Inv) : s.refuse.Inv := { hs with }

/-- R207: `SRC_CONTRACT` is the fault that the invariant admits. -/
theorem State.Inv.raise_srcContract (hs : s.Inv) : (s.raise .srcContract).Inv :=
  { hs with
    faults := by
      rw [State.faultSound, State.raise_faults, BitVec.and_or_distrib_right, hs.faults]
      decide }

/-- R12: taking a turn off the schedule is no step of the machine. -/
theorem State.Inv.afterTurn (hs : s.Inv) : s.afterTurn.Inv := by
  unfold State.afterTurn
  split <;> exact { hs with }

end Sys2Proof.Machine
end

section
/-! The invariant leaves one fault to raise (60_exceptions.md R207): under it every check of R209 passes, but for the
source's contract. -/

namespace Sys2Proof.Machine

variable {s t : State}

/-! ### Steps that cannot fault -/

/-- R208: a step with a guard whose effect cannot fault leaves the faults. -/
theorem attempt_faults {c : Prop} [Decidable c] {r : Except Fault State} (h : attempt s c r = .next t)
    (hr : c → ∃ u, r = .ok u ∧ u.faults = s.faults) : t.faults = s.faults := by
  by_cases hc : c
  · obtain ⟨u, rfl, hu⟩ := hr hc
    cases (attempt_ok hc).symm.trans h
    exact hu
  · cases (attempt_hold hc r).symm.trans h
    rfl

/-- R22: so does a scheduler step, since the control state is sound. -/
theorem State.Inv.schStep_faults (hs : s.Inv) {c : Prop} [Decidable c] {r : Except Fault State}
    (h : schStep s c r = .next t) (hr : c → ∃ u, r = .ok u ∧ u.faults = s.faults) : t.faults = s.faults := by
  rw [schStep, if_neg (by simp [hs.control])] at h
  exact attempt_faults h hr

/-- R190: a step through `SrcRequest` whose checks pass leaves the faults. -/
theorem srcRequest_faults {op : SrcOp} {f : Buf} {len : Word} {u : State} {g : State → State}
    (hu : u.faults = s.faults) (hg : ∀ v, (g v).faults = v.faults) (hreq : u.sch.req.valid = false)
    (hrsp : u.sch.rsp.valid = false) (hown : op = .read → u.sch.own f = false) :
    ∃ v, (srcRequest op f len u).map g = .ok v ∧ v.faults = s.faults :=
  ⟨_, congrArg (Except.map g) (srcRequest_succeeds hreq hrsp hown), (hg _).trans hu⟩

/-- R131: a step through `Issue` whose checks pass leaves the faults. -/
theorem issue_faults {i : Buf} {w : Word} {u : State} {g : State → State}
    (hu : u.faults = s.faults) (hg : ∀ v, (g v).faults = v.faults) (hbusy : u.dma.busy = false)
    (hpos : 1 ≤ w.toNat) (hle : 4 * w.toNat ≤ u.params.bufferSize.toNat) (hown : u.sch.own i = false) :
    ∃ v, (issue i w u).map g = .ok v ∧ v.faults = s.faults := by
  have hne : w ≠ 0#32 := fun h => by simp [h] at hpos
  have hfits : ¬wordCount u.params.bufferSize < w := by
    rw [BitVec.lt_def, toNat_wordCount]
    omega
  exact ⟨_, congrArg (Except.map g) (issue_succeeds hbusy hne hfits hown), (hg _).trans hu⟩

/-- R201: a terminal transition whose request has been answered leaves the faults. -/
theorem State.Inv.endAndClose_faults (hs : s.Inv) {c : Prop} [Decidable c] {ca : Cause} {m : Msg} {st : St}
    {i : Instr} (h : schStep s c (endAndClose ca m st i s) = .next t) (hreq : c → s.sch.req.valid = false) :
    t.faults = s.faults :=
  hs.schStep_faults h fun hc => srcRequest_faults rfl (fun _ => rfl) (hreq hc) rfl nofun

/-- R152, R163: a short answer consumed, the same buffer is read again without a fault. -/
theorem State.Inv.reread_faults (hs : s.Inv) {f : Buf} {len b : Word} {g : State → State}
    (hg : ∀ v, (g v).faults = v.faults) (hw : s.awaited = some (.read, f)) (hv : s.sch.rsp.valid = true) :
    ∃ v, (srcRequest .read f len (s.consume.setLastBytes b)).map g = .ok v ∧ v.faults = s.faults :=
  srcRequest_faults rfl hg (hs.req_of_answered hw hv) rfl fun _ => hs.own_of_read hw

/-- R89: a host access that leaves the faults when it is done leaves them when it is refused. -/
theorem hostAccessed_faults {ofs : BitVec 8} {u : State} (h : hostAccessed s ofs u = .next t)
    (hu : u.faults = s.faults) : t.faults = s.faults := by
  rcases hostAccessed_cases h with ⟨_, rfl⟩ | ⟨_, _, rfl⟩ | ⟨_, _, rfl⟩
  · rfl
  · rfl
  · exact hu

@[simp] theorem State.hostStore_faults (s : State) (ofs : BitVec 8) (v : Word) :
    (s.hostStore ofs v).faults = s.faults := by
  rcases s.hostStore_cases ofs v with hw | ⟨_, _, hw⟩ <;> rw [hw]

/-- R82, R133: a busy channel reads a word. -/
theorem State.Inv.memRead_succeeds (hs : s.Inv) (hb : s.dma.busy = true) :
    ∃ w, memRead s.params.toParams s.bufmem s.dma.readAddr = .ok w := by
  obtain ⟨hpos, hal, hlo, hhi, hf⟩ := hs.transfer hb
  exact Machine.memRead_succeeds hal (inBuffer_of_mem_region s.dma.buf hlo (by omega)) fun k hk => hf k (by omega)

/-! ### No fault but the source's -/

/-- R207: under the invariant no action raises a fault, but for the answer to a read. -/
theorem State.Inv.exec_faults (hs : s.Inv) {i : Instr} (h : exec i s = .next t) (hreset : i ≠ .reset)
    (hanswer : ∀ f err b, i ≠ .srcReadRsp f err b) : t.faults = s.faults := by
  cases i with
  | startOpen =>
    refine hs.schStep_faults h fun ⟨_, _, _, hreq, hrsp⟩ => ?_
    exact srcRequest_faults rfl (fun _ => rfl) hreq hrsp nofun
  | openOk _ =>
    refine hs.schStep_faults h fun ⟨hp, hv, _⟩ => ?_
    obtain ⟨hA, _⟩ := hs.neverIssued_of_idle (hs.st_of_opn hp)
    exact srcRequest_faults rfl (fun _ => rfl) (hs.req_of_answered (State.awaited_of_opn hp) hv) rfl fun _ => hA
  | openFail | fillOk _ _ | closeDone => exact hs.schStep_faults h fun _ => ⟨_, rfl, by simp⟩
  | primeErr => exact hs.endAndClose_faults h fun ⟨hp, hv, _⟩ => hs.req_of_answered (State.awaited_of_prime hp) hv
  | primeEmpty =>
    exact hs.endAndClose_faults h fun ⟨⟨hp, hv, _⟩, _⟩ => hs.req_of_answered (State.awaited_of_prime hp) hv
  | fillErr _ => exact hs.endAndClose_faults h fun ⟨hp, hv, _⟩ => hs.req_of_answered (State.awaited_of_fill hp) hv
  | fillEos _ =>
    exact hs.endAndClose_faults h fun ⟨⟨hp, hv, _⟩, _⟩ => hs.req_of_answered (State.awaited_of_fill hp) hv
  | primeShort _ =>
    exact hs.schStep_faults h fun ⟨⟨hp, hv, _⟩, _⟩ => hs.reread_faults (fun _ => rfl) (State.awaited_of_prime hp) hv
  | fillShort _ _ =>
    exact hs.schStep_faults h fun ⟨⟨hp, hv, _⟩, _⟩ => hs.reread_faults (fun _ => rfl) (State.awaited_of_fill hp) hv
  | primeIssue _ =>
    refine hs.schStep_faults h fun ⟨⟨hp, hv, _⟩, hfour⟩ => ?_
    have hw := State.awaited_of_prime hp
    obtain ⟨_, _, _, _, hbusy, _⟩ := hs.neverIssued_of_idle (hs.st_of_prime hp)
    obtain ⟨hpos, hle, _⟩ := hs.words_of_read hw hv hfour
    exact issue_faults rfl (fun _ => rfl) hbusy hpos hle (hs.own_of_read hw)
  | fillReq _ _ =>
    refine hs.schStep_faults h fun ⟨_, hst, hreq, hrsp⟩ => ?_
    obtain ⟨⟨_, hfree⟩, _⟩ := hs.issuedOnce_of_live hst
    exact srcRequest_faults rfl (fun _ => rfl) hreq hrsp fun _ => hfree
  | waitIssue _ _ =>
    refine hs.schStep_faults h fun ⟨hp, _, hbusy⟩ => ?_
    obtain ⟨hpos, hle, _⟩ := (State.pending_iff_of_wait hp).1 hs.pending
    obtain ⟨⟨_, hfree⟩, _⟩ := hs.issuedOnce_of_live (.inr (hs.st_of_wait hp))
    exact issue_faults rfl (fun _ => rfl) hbusy hpos hle (by simpa [State.fillable] using hfree)
  | hostWrite ofs v => exact hostAccessed_faults h (s.hostStore_faults ofs v)
  | hostRead ofs v => exact hostAccessed_faults h rfl
  | dmaMove _ _ =>
    refine attempt_faults h fun ⟨hb, hroom⟩ => ?_
    obtain ⟨w, hw⟩ := hs.memRead_succeeds hb
    exact ⟨s.moved w (s.soe.q ++ [w]), by simp only [hw, queuePush_succeeds hroom], rfl⟩
  | soeEmit x =>
    rcases execSoeEmit_cases x h with rfl | ⟨w, q, _, rfl⟩ <;> rfl
  | srcOpenRsp err hd | srcCloseRsp => exact attempt_faults h fun _ => ⟨_, rfl, rfl⟩
  | srcReadRsp f err b => exact absurd rfl (hanswer f err b)
  | reset => exact absurd rfl hreset

/-- R193: the answer to a read that is longer than the request, or that reports an error and bytes. -/
def BreaksContract (i : Instr) (s : State) : Prop :=
  ∃ f err b, i = .srcReadRsp f err b ∧ (s.sch.req.len.toNat < b.toNat ∨ (err = true ∧ b ≠ 0#32))

/-- R193, R209: under the invariant the only fault of a read answer is that it breaks the contract. -/
theorem State.Inv.readAnswer_error (hs : s.Inv) (hc : canRespond s .read) (x : Buf) {err : Bool} {b : Word}
    {f : Fault} (h : readAnswer err b s = .error f) : f = .srcContract ∧ BreaksContract (.srcReadRsp x err b) s := by
  obtain ⟨f', hw, hbuf, hlen⟩ := hs.asked hc
  unfold readAnswer at h
  split at h
  · rename_i hlong
    cases h
    exact ⟨rfl, x, err, b, rfl, .inl hlong⟩
  · split at h
    · rename_i herr
      cases h
      exact ⟨rfl, x, err, b, rfl, .inr herr⟩
    · split at h
      · rename_i hown
        rw [hbuf, hs.own_of_read hw] at hown
        cases hown
      · rename_i hshort _ _
        rw [BitVec.lt_def, hlen rfl] at hshort
        obtain ⟨m, hm⟩ := memWriteAll_succeeds (p := s.params.toParams) (s.env.bytes b.toNat) s.bufmem
          (bufBase s.params.toParams s.sch.req.buf).toNat fun k hk =>
            inBuffer_of_mem_region s.sch.req.buf (Nat.le_add_right _ _) (by rw [Env.length_bytes] at hk; omega)
        rw [hm] at h
        cases h

/-- A fault that leaves the faults is no change. -/
theorem State.raise_eq_self {f : Fault} (h : (s.raise f).faults = s.faults) : s.raise f = s :=
  congrArg (fun x => ({ s with faults := x } : State)) h

/-- Whatever an action does under the invariant: nothing, a refusal, its effect, or `SRC_CONTRACT` for an answer that
breaks the contract. -/
theorem State.Inv.exec_cases (hs : s.Inv) (i : Instr) (h : exec i s = .next t) :
    t = s ∨ t = s.refuse ∨ (t = s.raise .srcContract ∧ BreaksContract i s) ∨ Effect i s t := by
  cases i with
  | reset =>
    cases h
    exact .inr (.inr (.inr rfl))
  | srcReadRsp x err b =>
    rcases attempt_cases h with ⟨_, rfl⟩ | ⟨hc, hok⟩ | ⟨hc, f, herr, rfl⟩
    · exact .inl rfl
    · exact .inr (.inr (.inr (readAnswer_ok x hc hok)))
    · obtain ⟨rfl, hb⟩ := hs.readAnswer_error hc x herr
      exact .inr (.inr (.inl ⟨rfl, hb⟩))
  | _ =>
    rcases Machine.exec_cases _ h with rfl | rfl | ⟨f, rfl⟩ | he
    · exact .inl rfl
    · exact .inr (.inl rfl)
    · exact .inl (State.raise_eq_self (hs.exec_faults h nofun nofun))
    · exact .inr (.inr (.inr he))

end Sys2Proof.Machine
end

section
/-! The invariant (10_state.md R22, R26; 20_memory.md R82; 44_step.md R168 to R171): the effect of each action keeps it,
and so does every step. -/

namespace Sys2Proof.Machine

variable {s t : State}

/-! ### Opening the source and the prime -/

/-- R142: the open is requested; nothing has been issued yet. -/
theorem State.Inv.after_startOpen (hs : s.Inv) (h : Effect .startOpen s t) : t.Inv := by
  obtain ⟨⟨hst, hp, _, _, hrsp⟩, rfl⟩ := h
  have hrun : s.sch.st.terminal = false := by rw [hst]; rfl
  have hclosed : s.sch.hvalid = false := hs.handle.1 (.inl hp)
  exact
    { hs with
      control := Sch.sound_of_move hs.control (pairAllowed_opn.2 hst) rfl rfl
      source := State.sourcePhase_of_request rfl hrsp ⟨rfl, rfl, rfl, nofun⟩
      pending := hs.pending_of_ne_wait (by simp [hp]) nofun rfl
      outcome := hs.outcome_of_running hrun hrun rfl rfl rfl
      start := nofun
      handle := ⟨fun _ => hclosed, nofun⟩
      lastBytes := ⟨fun _ => hs.lastBytes.1 (.inl hp), hs.lastBytes.2⟩ }

/-- R143: the handle is valid from here on, and the prime read of a full buffer is awaited. -/
theorem State.Inv.after_openOk (hs : s.Inv) {x : Word} (h : Effect (.openOk x) s t) : t.Inv := by
  obtain ⟨⟨hp, _⟩, _, _, rfl⟩ := h
  have hst := hs.st_of_opn hp
  have hnone := hs.neverIssued_of_idle hst
  exact
    { hs with
      control := Sch.sound_of_move hs.control (pairAllowed_prime.2 rfl) rfl rfl
      ownership := ⟨fun _ => hnone, nofun, nofun⟩
      source := State.sourcePhase_of_request rfl rfl ⟨rfl, rfl, rfl, fun _ => rfl⟩
      pending := hs.pending_of_ne_wait (by simp [hp]) nofun rfl
      outcome := hs.outcome_of_running (by rw [hst]; rfl) rfl rfl rfl rfl
      start := fun h => by simpa [hp] using hs.start h
      handle := State.handleSound_of_open rfl ⟨nofun, nofun, nofun⟩
      lastBytes := ⟨nofun, nofun⟩ }

/-- R144: the session ends with the source closed and nothing issued. -/
theorem State.Inv.after_openFail (hs : s.Inv) (h : Effect .openFail s t) : t.Inv := by
  obtain ⟨⟨hp, hv, _⟩, rfl⟩ := h
  have hst := hs.st_of_opn hp
  have hnone := hs.neverIssued_of_idle hst
  have hcon := hs.console_of_running (by rw [hst]; rfl)
  have hclosed : s.sch.hvalid = false := hs.handle.1 (.inr (.inl hp))
  exact
    { hs with
      control := (Sch.sound_iff _).2 ⟨pairAllowed_stop.2 (.inr rfl), rfl, rfl⟩
      ownership := ⟨nofun, nofun, fun _ => .inl hnone⟩
      source := State.sourcePhase_of_quiet rfl ⟨hs.req_of_answered (State.awaited_of_opn hp) hv, rfl⟩
      pending := hs.pending_of_ne_wait (by simp [hp]) nofun rfl
      outcome := ⟨nofun, nofun, fun _ => .inl ⟨rfl, rfl, by simp [hcon], rfl, hnone⟩⟩
      start := fun h => by simpa [hp] using hs.start h
      handle := ⟨fun _ => hclosed, nofun⟩
      lastBytes := ⟨fun _ => rfl, fun _ => rfl⟩ }

/-- R201: a session that ends with the source open, once the ownership and the outcome of its new control state are
given. -/
theorem State.Inv.after_closing (hs : s.Inv) (hp : s.sch.ph = .prime ∨ s.sch.ph = .fill) {c : Cause} {m : Msg}
    {st : St} (ht : t = { s with sch := s.sch.closing c m st, console := s.console ++ [m], trace := t.trace })
    (hst : pairAllowed st .close = true) (hc : c.allowed = true) (hm : m.allowed = true)
    (hown : t.ownership) (hout : t.outcome) : t.Inv := by
  have hopen := hs.hvalid_of_read hp
  rw [ht] at hown hout ⊢
  exact
    { hs with
      control := (Sch.sound_iff _).2 ⟨hst, hc, hm⟩
      ownership := hown
      source := State.sourcePhase_of_request rfl rfl ⟨rfl, rfl, rfl, nofun⟩
      pending := hs.pending_of_ne_wait (by rcases hp with hp | hp <;> simp [hp]) nofun rfl
      outcome := hout
      start := fun h => by rcases hp with hp | hp <;> simpa [hp] using hs.start h
      handle := State.handleSound_of_open hopen ⟨nofun, nofun, nofun⟩
      lastBytes := ⟨fun _ => rfl, fun _ => rfl⟩ }

theorem State.Inv.after_primeErr (hs : s.Inv) (h : Effect .primeErr s t) : t.Inv := by
  obtain ⟨⟨hp, _⟩, _, rfl⟩ := h
  have hst := hs.st_of_prime hp
  have hnone := hs.neverIssued_of_idle hst
  have hcon := hs.console_of_running (by rw [hst]; rfl)
  exact hs.after_closing (.inl hp) rfl rfl rfl rfl ⟨nofun, nofun, fun _ => .inl hnone⟩
    ⟨nofun, nofun, fun _ => .inr (.inr ⟨rfl, rfl, by simp [hcon]⟩)⟩

theorem State.Inv.after_primeEmpty (hs : s.Inv) (h : Effect .primeEmpty s t) : t.Inv := by
  obtain ⟨⟨⟨hp, _⟩, _⟩, _, rfl⟩ := h
  have hst := hs.st_of_prime hp
  have hnone := hs.neverIssued_of_idle hst
  have hcon := hs.console_of_running (by rw [hst]; rfl)
  exact hs.after_closing (.inl hp) rfl rfl rfl rfl ⟨nofun, nofun, fun _ => .inl hnone⟩
    ⟨nofun, nofun, fun _ => .inr (.inl ⟨rfl, rfl, by simp [hcon], hnone⟩)⟩

theorem State.Inv.after_fillErr (hs : s.Inv) {x : Buf} (h : Effect (.fillErr x) s t) : t.Inv := by
  obtain ⟨⟨hp, _⟩, _, rfl⟩ := h
  have hst := hs.st_of_fill hp
  have honce := hs.issuedOnce_of_live (.inr hst)
  have hcon := hs.console_of_running (by rw [hst]; rfl)
  exact hs.after_closing (.inr hp) rfl rfl rfl rfl ⟨nofun, nofun, fun _ => .inr honce⟩
    ⟨nofun, nofun, fun _ => .inr (.inr ⟨rfl, rfl, by simp [hcon]⟩)⟩

theorem State.Inv.after_fillEos (hs : s.Inv) {x : Buf} (h : Effect (.fillEos x) s t) : t.Inv := by
  obtain ⟨⟨⟨hp, _⟩, _⟩, _, rfl⟩ := h
  have hst := hs.st_of_fill hp
  have honce := hs.issuedOnce_of_live (.inr hst)
  have hcon := hs.console_of_running (by rw [hst]; rfl)
  exact hs.after_closing (.inr hp) rfl rfl rfl rfl ⟨nofun, fun _ => honce, nofun⟩
    ⟨nofun, fun _ => ⟨rfl, rfl, by simp [hcon]⟩, nofun⟩

/-- R152, R163: a short answer dropped and the same buffer asked for again, in the same control state. -/
theorem State.Inv.after_rereading (hs : s.Inv) {f : Buf} (hw : s.awaited = some (.read, f))
    (ht : t = { s with sch := s.sch.rereading f s.params.bufferSize s.sch.st s.sch.ph, trace := t.trace }) :
    t.Inv := by
  have hphase := hs.read_phase hw
  have hrun : s.sch.st.terminal = false := by rcases hphase with ⟨hst, _⟩ | ⟨hst, _⟩ <;> rw [hst] <;> rfl
  have hlate : ¬(s.sch.ph = .ready ∨ s.sch.ph = .opn) := by rcases hphase with ⟨_, hp, _⟩ | ⟨_, hp, _⟩ <;> simp [hp]
  rw [ht]
  exact
    { hs with
      source := State.sourcePhase_of_request hw rfl ⟨rfl, rfl, rfl, fun _ => rfl⟩
      lastBytes := ⟨fun h => absurd h hlate, fun h => Bool.noConfusion (hrun.symm.trans h)⟩ }

theorem State.Inv.after_primeShort (hs : s.Inv) {x : Word} (h : Effect (.primeShort x) s t) : t.Inv := by
  obtain ⟨⟨⟨hp, _⟩, _⟩, _, _, rfl⟩ := h
  exact hs.after_rereading (State.awaited_of_prime hp) (by rw [hp, hs.st_of_prime hp])

theorem State.Inv.after_fillShort (hs : s.Inv) {x : Buf} {y : Word} (h : Effect (.fillShort x y) s t) : t.Inv := by
  obtain ⟨⟨⟨hp, _⟩, _⟩, _, _, rfl⟩ := h
  exact hs.after_rereading (State.awaited_of_fill hp) (by rw [hp, hs.st_of_fill hp])

/-! ### Transfers -/

/-- R153: the first transfer is number 1, of buffer A. -/
theorem State.Inv.after_primeIssue (hs : s.Inv) {x : Word} (h : Effect (.primeIssue x) s t) : t.Inv := by
  obtain ⟨⟨⟨hp, hv, _⟩, hfour⟩, _, _, _, _, rfl⟩ := h
  have hst := hs.st_of_prime hp
  have hw := State.awaited_of_prime hp
  obtain ⟨hpos, hle, hfill⟩ := hs.words_of_read hw hv hfour
  obtain ⟨_, hB, _, hcount, _⟩ := hs.neverIssued_of_idle hst
  have hodd : (s.sch.xferCount + 1#32).getLsbD 0 = true := by rw [hcount]; rfl
  have hopen := hs.hvalid_of_read (.inl hp)
  exact
    { hs with
      control := Sch.sound_of_move hs.control (pairAllowed_issued.2 (.inl rfl)) rfl rfl
      ownership := ⟨nofun, fun _ => ⟨⟨rfl, hB⟩, rfl, rfl, hodd⟩, nofun⟩
      transfer := State.transferSound_of_issue rfl hpos hle hfill
      source := State.sourcePhase_of_quiet rfl ⟨hs.req_of_answered hw hv, rfl⟩
      pending := hs.pending_of_ne_wait (by simp [hp]) nofun rfl
      outcome := hs.outcome_of_running (by rw [hst]; rfl) rfl rfl rfl rfl
      start := fun h => by simpa [hp] using hs.start h
      handle := State.handleSound_of_open hopen ⟨nofun, nofun, nofun⟩
      lastBytes := ⟨nofun, nofun⟩ }

/-- R160: the fillable buffer, which is the scheduler's, is asked for while the other is in flight. -/
theorem State.Inv.after_fillReq (hs : s.Inv) {x : Buf} {y : Word} (h : Effect (.fillReq x y) s t) : t.Inv := by
  obtain ⟨⟨hp, hst, _, hrsp⟩, _, rfl⟩ := h
  have honce := hs.issuedOnce_of_live hst
  have hopen : s.sch.hvalid = true := hs.handle.2 (.inr (.inl hp))
  exact
    { hs with
      control := Sch.sound_of_move hs.control (pairAllowed_fill.2 rfl) rfl rfl
      ownership := ⟨nofun, fun _ => honce, nofun⟩
      source := State.sourcePhase_of_request rfl hrsp ⟨rfl, rfl, rfl, fun _ => rfl⟩
      pending := hs.pending_of_ne_wait (by simp [hp]) nofun rfl
      outcome := hs.outcome_of_running (by rcases hst with hst | hst <;> rw [hst] <;> rfl) rfl rfl rfl rfl
      start := fun h => by simpa [hp] using hs.start h
      handle := State.handleSound_of_open hopen ⟨nofun, nofun, nofun⟩
      lastBytes := ⟨nofun, nofun⟩ }

/-- R164: the words pending are those of the answer, written in the fillable buffer. -/
theorem State.Inv.after_fillOk (hs : s.Inv) {x : Buf} {y : Word} (h : Effect (.fillOk x y) s t) : t.Inv := by
  obtain ⟨⟨⟨hp, hv, _⟩, hfour⟩, rfl⟩ := h
  have hst := hs.st_of_fill hp
  have hw := State.awaited_of_fill hp
  have honce := hs.issuedOnce_of_live (.inr hst)
  have hopen := hs.hvalid_of_read (.inr hp)
  exact
    { hs with
      control := Sch.sound_of_move hs.control (pairAllowed_wait.2 rfl) rfl rfl
      ownership := ⟨nofun, fun _ => honce, nofun⟩
      source := State.sourcePhase_of_quiet rfl ⟨hs.req_of_answered hw hv, rfl⟩
      pending := (State.pending_iff_of_wait rfl).2 (hs.words_of_read hw hv hfour)
      outcome := hs.outcome_of_running (by rw [hst]; rfl) rfl rfl rfl rfl
      start := fun h => by simpa [hp] using hs.start h
      handle := State.handleSound_of_open hopen ⟨nofun, nofun, nofun⟩
      lastBytes := ⟨nofun, nofun⟩ }

/-- R165: buffers and parity flip together, and the words that were pending are the transfer. -/
theorem State.Inv.after_waitIssue (hs : s.Inv) {x : Buf} {y : Word} (h : Effect (.waitIssue x y) s t) : t.Inv := by
  obtain ⟨⟨hp, _⟩, _, _, _, rfl⟩ := h
  have hst := hs.st_of_wait hp
  obtain ⟨hpos, hle, hfill⟩ := (State.pending_iff_of_wait hp).1 hs.pending
  obtain ⟨_, _, _, hparity⟩ := hs.issuedOnce_of_live (.inr hst)
  have hflip : (s.sch.xferCount + 1#32).getLsbD 0 = !(otherBuf s.sch.active).toBit := by
    rw [getLsbD_zero_add_one, hparity, toBit_otherBuf]
  have hopen : s.sch.hvalid = true := hs.handle.2 (by simp [hp])
  have hquiet : s.idleSource := hs.source.1 (by simp [hp])
  exact
    { hs with
      control := Sch.sound_of_move hs.control (pairAllowed_issued.2 (.inr rfl)) (by simp) (by simp)
      ownership := ⟨nofun, fun _ => ⟨⟨Sch.own_setOwn_same _ _ _, Sch.own_flip⟩, rfl, rfl, hflip⟩, nofun⟩
      transfer := State.transferSound_of_issue rfl hpos hle hfill
      source := State.sourcePhase_of_quiet rfl (by simpa [State.idleSource] using hquiet)
      pending := (State.pending_iff_of_ne_wait (by simp)).2 rfl
      outcome := hs.outcome_of_running (by rw [hst]; rfl) rfl (by simp) (by simp) rfl
      start := fun h => by simpa [hp] using hs.start (by simpa using h)
      handle := State.handleSound_of_open (by simpa using hopen) ⟨nofun, nofun, nofun⟩
      lastBytes := ⟨nofun, nofun⟩ }

/-- R180: the handle is invalid from here on, and the outcome stands. -/
theorem State.Inv.after_closeDone (hs : s.Inv) (h : Effect .closeDone s t) : t.Inv := by
  obtain ⟨⟨hp, hv, _⟩, rfl⟩ := h
  obtain ⟨hrun, hdone, hhalt⟩ := hs.outcome
  exact
    { hs with
      control := Sch.sound_of_move hs.control (pairAllowed_stop.2 (hs.st_of_close hp)) rfl rfl
      source := State.sourcePhase_of_quiet rfl ⟨hs.req_of_answered (State.awaited_of_close hp) hv, rfl⟩
      pending := hs.pending_of_ne_wait (by simp [hp]) nofun rfl
      outcome := ⟨hrun, hdone, fun h => (hhalt h).imp_left fun ⟨hc, hm, hcon, _, hnone⟩ => ⟨hc, hm, hcon, rfl, hnone⟩⟩
      start := fun h => by simpa [hp] using hs.start h
      handle := ⟨fun _ => rfl, nofun⟩
      lastBytes := ⟨nofun, hs.lastBytes.2⟩ }

/-- R133: a moved word leaves the rest of the transfer in the buffer, or ends it. -/
theorem State.Inv.transferSound_moved (hs : s.Inv) (w : Word) (q : List Word) : (s.moved w q).transferSound := by
  intro hb
  by_cases hlast : s.dma.count - 1#32 = 0#32
  · simp [hlast] at hb
  obtain ⟨hpos, hal, hlo, hhi, hfill⟩ := hs.transfer (by simpa [hlast] using hb)
  have htop := bufBase_add_bufferSize_le s.params s.dma.buf
  have hcount : (s.dma.count - 1#32).toNat = s.dma.count.toNat - 1 := BitVec.toNat_sub_of_le hpos
  have hmore : 1 ≤ (s.dma.count - 1#32).toNat := Nat.pos_of_ne_zero fun h => hlast (BitVec.toNat_inj.1 h)
  have haddr : (s.dma.readAddr + 4#32).toNat = s.dma.readAddr.toNat + 4 :=
    BitVec.toNat_add_of_lt (by simp; omega)
  simp only [State.moved_params, State.moved_dma, State.moved_bufmem, hcount, haddr]
  exact ⟨by omega, by omega, by omega, by omega, Memory.filled_sub hfill (by omega) (by omega)⟩

/-- R133: only a channel that a transfer was issued to moves; the last word turns `BUSY` into `DONE`. -/
theorem State.Inv.after_dmaMove (hs : s.Inv) {x : Buf} {y : Word} (h : Effect (.dmaMove x y) s t) : t.Inv := by
  obtain ⟨⟨hb, hroom⟩, w, _, rfl⟩ := h
  have hnever : ¬s.neverIssued := fun ⟨_, _, _, _, hidle, _⟩ => Bool.noConfusion (hidle.symm.trans hb)
  have honce : s.issuedOnce → (s.moved w (s.soe.q ++ [w])).issuedOnce := fun ⟨hown, hbuf, hdone, hparity⟩ =>
    ⟨hown, hbuf, by by_cases hlast : s.dma.count - 1#32 = 0#32 <;> simp [hlast, hdone], hparity⟩
  obtain ⟨hidle, hlive, hhalted⟩ := hs.ownership
  obtain ⟨hrun, hdone, hhalt⟩ := hs.outcome
  exact
    { hs with
      ownership := ⟨fun h => absurd (hidle h) hnever, fun h => honce (hlive h),
        fun h => .inr (honce ((hhalted h).resolve_left hnever))⟩
      transfer := hs.transferSound_moved w _
      outcome := ⟨hrun, hdone, fun h => by
        rcases hhalt h with ⟨_, _, _, _, hnone⟩ | ⟨_, _, _, hnone⟩ | hread
        · exact absurd hnone hnever
        · exact absurd hnone hnever
        · exact .inr (.inr hread)⟩
      queue := by simpa using hroom }

/-- R123: the queue gets shorter. -/
theorem State.Inv.after_soeEmit (hs : s.Inv) {x : Word} (h : Effect (.soeEmit x) s t) : t.Inv := by
  obtain ⟨w, q, hq, rfl⟩ := h
  have hlen : q.length + 1 ≤ s.params.queueDepth := by simpa [hq] using hs.queue
  exact { hs with queue := Nat.le_of_succ_le hlen }

/-! ### The host -/

theorem State.Inv.hostStore (hs : s.Inv) (ofs : BitVec 8) (v : Word) : (s.hostStore ofs v).Inv := by
  rcases s.hostStore_cases ofs v with h | ⟨hst, hp, h⟩ <;> rw [h]
  · exact hs
  · exact { hs with start := fun _ => ⟨hst, hp⟩ }

theorem State.Inv.emit (hs : s.Inv) (i : Instr) : (s.emit i).Inv := { hs with }

/-! ### The answers of the source -/

/-- R192 to R194: an answer takes the place of the request, where an answer to a read keeps the contract. -/
theorem State.Inv.respond (hs : s.Inv) {op : SrcOp} (hc : canRespond s op) (err : Bool) (b handle : Word)
    (hread : op = .read → b.toNat ≤ s.params.bufferSize.toNat ∧ (err = true → b = 0#32) ∧
      s.bufmem.filled (bufBase s.params.toParams s.sch.req.buf).toNat b.toNat) :
    (s.respond op err b handle).Inv := by
  obtain ⟨f, hw, rfl, _⟩ := hs.asked hc
  exact { hs with source := State.sourcePhase_of_awaiting hw (.inr ⟨rfl, rfl, rfl, hread⟩) }

/-- R193: the data bytes of an answer go into the buffers, and what was written stays written. -/
theorem State.Inv.write (hs : s.Inv) {a : Nat} {d : List Byte} {m : Memory} {e : Env}
    (hm : memWriteAll s.params.toParams s.bufmem a d = .ok m) : ({ s with bufmem := m, env := e } : State).Inv := by
  obtain ⟨hwf, hin⟩ := hs.memory
  obtain ⟨hquiet, hawait⟩ := s.sourcePhase_iff.1 hs.source
  exact
    { hs with
      transfer := fun hb => by
        obtain ⟨hpos, hal, hlo, hhi, hfill⟩ := hs.transfer hb
        exact ⟨hpos, hal, hlo, hhi, memWriteAll_keeps_filled hm hfill⟩
      source := (State.sourcePhase_iff _).2 ⟨hquiet, fun op f hw =>
        (hawait op f hw).imp_right fun ⟨hreq, hrsp, hop, hread⟩ => ⟨hreq, hrsp, hop, fun h => by
          obtain ⟨hle, herr, hfill⟩ := hread h
          exact ⟨hle, herr, memWriteAll_keeps_filled hm hfill⟩⟩⟩
      pending := by
        by_cases hp : s.sch.ph = .wait
        · obtain ⟨hpos, hle, hfill⟩ := (State.pending_iff_of_wait hp).1 hs.pending
          have hfill' := memWriteAll_keeps_filled hm hfill
          exact (State.pending_iff_of_wait (s := { s with bufmem := m, env := e }) hp).2 ⟨hpos, hle, hfill'⟩
        · exact hs.pending_of_ne_wait hp hp rfl
      memory := ⟨memWriteAll_wf hm hwf, memWriteAll_inBuffer hm hin⟩ }

theorem State.Inv.after_srcReadRsp (hs : s.Inv) {x : Buf} {err : Bool} {b : Word}
    (h : Effect (.srcReadRsp x err b) s t) : t.Inv := by
  obtain ⟨hc, hlen, herr, _, m, hm, rfl⟩ := h
  obtain ⟨_, _, _, hsize⟩ := hs.asked hc
  rw [BitVec.lt_def, hsize rfl, not_lt] at hlen
  have hfill : m.filled (bufBase s.params.toParams s.sch.req.buf).toNat b.toNat := by
    simpa using memWriteAll_filled hm
  refine ((hs.write hm).respond hc err b 0#32 fun _ => ⟨hlen, fun h => ?_, hfill⟩).emit _
  simpa [h] using herr

/-! ### Every step -/

/-- R47: the reset table meets the invariant. -/
theorem State.cleared_inv (p : ValidParams) (e : Env) : (State.cleared p e).Inv where
  control := rfl
  ownership := ⟨fun _ => ⟨rfl, rfl, rfl, rfl, rfl, rfl⟩, nofun, nofun⟩
  transfer := nofun
  source := State.sourcePhase_of_quiet rfl ⟨rfl, rfl⟩
  pending := rfl
  outcome := ⟨fun _ => ⟨rfl, rfl, rfl⟩, nofun, nofun⟩
  start := nofun
  handle := ⟨fun _ => rfl, by simp [State.cleared]⟩
  lastBytes := ⟨fun _ => rfl, fun _ => rfl⟩
  memory := ⟨Memory.wf_nil, nofun⟩
  queue := Nat.zero_le _
  faults := BitVec.zero_and

/-- The effect of every action keeps the invariant: one lemma per action above. -/
theorem State.Inv.after_effect (hs : s.Inv) {i : Instr} (h : Effect i s t) : t.Inv := by
  cases i with
  | startOpen => exact hs.after_startOpen h
  | openOk _ => exact hs.after_openOk h
  | openFail => exact hs.after_openFail h
  | primeErr => exact hs.after_primeErr h
  | primeEmpty => exact hs.after_primeEmpty h
  | primeShort _ => exact hs.after_primeShort h
  | primeIssue _ => exact hs.after_primeIssue h
  | fillReq _ _ => exact hs.after_fillReq h
  | fillErr _ => exact hs.after_fillErr h
  | fillEos _ => exact hs.after_fillEos h
  | fillShort _ _ => exact hs.after_fillShort h
  | fillOk _ _ => exact hs.after_fillOk h
  | waitIssue _ _ => exact hs.after_waitIssue h
  | closeDone => exact hs.after_closeDone h
  | hostWrite ofs v =>
    obtain ⟨_, _, rfl⟩ := h
    exact (hs.hostStore ofs v).emit _
  | hostRead _ _ =>
    obtain ⟨_, _, rfl⟩ := h
    exact hs.emit _
  | dmaMove _ _ => exact hs.after_dmaMove h
  | soeEmit _ => exact hs.after_soeEmit h
  | srcOpenRsp err handle =>
    obtain ⟨hc, rfl⟩ := h
    exact (hs.respond hc err 0#32 _ nofun).emit _
  | srcReadRsp _ _ _ => exact hs.after_srcReadRsp h
  | srcCloseRsp =>
    obtain ⟨hc, rfl⟩ := h
    exact (hs.respond hc false 0#32 0#32 nofun).emit _
  | reset =>
    cases h
    exact (State.cleared_inv s.params s.env).emit _

/-- An action under the invariant holds, is refused, raises the admitted fault, or takes its effect. -/
theorem State.Inv.exec (hs : s.Inv) (i : Instr) (h : exec i s = .next t) : t.Inv := by
  rcases hs.exec_cases i h with rfl | rfl | ⟨rfl, _⟩ | h
  · exact hs
  · exact hs.refuse
  · exact hs.raise_srcContract
  · exact hs.after_effect h

theorem State.Inv.takeTurn (hs : s.Inv) (τ : Turn) (h : takeTurn τ s = .next t) : t.Inv := by
  rcases takeTurn_forms τ s with ⟨i, hi⟩ | hi | hi | hi <;> rw [hi] at h
  · exact hs.exec i h
  · cases h
    exact hs
  · cases h
    exact hs.refuse
  · cases h
    exact hs.raise_srcContract

/-- Settles O53: taking the turn off the schedule keeps the invariant, and so does the turn, which is an action, a hold,
a refusal or the one fault that the invariant admits. -/
theorem everyStepKeepsTheInvariant : Obligations.EveryStepKeepsTheInvariant := by
  intro s t hs h
  exact hs.afterTurn.takeTurn s.nextTurn h

end Sys2Proof.Machine
end

section
/-! The records of actions (30_encoding.md R92, R110): the decoder reads each field where the encoder puts it, so that the
record of a well-formed action decodes to that action. -/

namespace Sys2Proof

/-! ### The fields of a packed record -/

section
variable (act : BitVec 8) (buf err : Bool) (ofs : BitVec 8) (arg : Word)

@[simp] theorem packRecord_act : (packRecord act buf err ofs arg).extractLsb' 0 8 = act :=
  BitVec.extractLsb'_append_eq_right

@[simp] theorem packRecord_buf : (packRecord act buf err ofs arg)[8] = buf := by
  rw [← BitVec.getLsbD_eq_getElem, packRecord, BitVec.getLsbD_append, if_neg (by decide),
    BitVec.getLsbD_append, if_pos (by decide)]
  cases buf <;> rfl

@[simp] theorem packRecord_err : (packRecord act buf err ofs arg)[9] = err := by
  rw [← BitVec.getLsbD_eq_getElem, packRecord, BitVec.getLsbD_append, if_neg (by decide),
    BitVec.getLsbD_append, if_neg (by decide), BitVec.getLsbD_append, if_pos (by decide)]
  cases err <;> rfl

@[simp] theorem packRecord_reserved_low : (packRecord act buf err ofs arg).extractLsb' 10 6 = 0#6 := by
  unfold packRecord
  repeat rw [BitVec.extractLsb'_append_eq_of_le (by decide)]
  exact BitVec.extractLsb'_append_eq_right

@[simp] theorem packRecord_ofs : (packRecord act buf err ofs arg).extractLsb' 16 8 = ofs := by
  unfold packRecord
  repeat rw [BitVec.extractLsb'_append_eq_of_le (by decide)]
  exact BitVec.extractLsb'_append_eq_right

@[simp] theorem packRecord_reserved_high : (packRecord act buf err ofs arg).extractLsb' 24 8 = 0#8 := by
  unfold packRecord
  repeat rw [BitVec.extractLsb'_append_eq_of_le (by decide)]
  exact BitVec.extractLsb'_append_eq_right

@[simp] theorem packRecord_arg : (packRecord act buf err ofs arg).extractLsb' 32 32 = arg := by
  unfold packRecord
  repeat rw [BitVec.extractLsb'_append_eq_of_le (by decide)]
  exact BitVec.extractLsb'_eq_self

/-- R110: the reserved bits of a packed record are 0, and its fields are those it was packed from. -/
theorem decode_packRecord : decode (packRecord act buf err ofs arg) = decodeFields act buf err ofs arg := by
  simp [decode]

end

/-- R92, R110: one lemma of the family `Fields` per action. -/
theorem decode_encode (i : Instr) (hi : i.wellFormed = true) : decode (encode i) = some i := by
  rw [encode, decode_packRecord]
  cases i with
  | startOpen => exact Laws.Fields.startOpen hi
  | openOk len => exact Laws.Fields.openOk len hi
  | openFail => exact Laws.Fields.openFail hi
  | primeErr => exact Laws.Fields.primeErr hi
  | primeEmpty => exact Laws.Fields.primeEmpty hi
  | primeShort bytes => exact Laws.Fields.primeShort bytes hi
  | primeIssue words => exact Laws.Fields.primeIssue words hi
  | fillReq f len => exact Laws.Fields.fillReq f len hi
  | fillErr f => exact Laws.Fields.fillErr f hi
  | fillEos f => exact Laws.Fields.fillEos f hi
  | fillShort f bytes => exact Laws.Fields.fillShort f bytes hi
  | fillOk f bytes => exact Laws.Fields.fillOk f bytes hi
  | waitIssue f words => exact Laws.Fields.waitIssue f words hi
  | closeDone => exact Laws.Fields.closeDone hi
  | hostWrite ofs v => exact Laws.Fields.hostWrite ofs v hi
  | hostRead ofs v => exact Laws.Fields.hostRead ofs v hi
  | dmaMove f w => exact Laws.Fields.dmaMove f w hi
  | soeEmit w => exact Laws.Fields.soeEmit w hi
  | srcOpenRsp err handle => exact Laws.Fields.srcOpenRsp err handle hi
  | srcReadRsp f err bytes => exact Laws.Fields.srcReadRsp f err bytes hi
  | srcCloseRsp => exact Laws.Fields.srcCloseRsp hi
  | reset => exact Laws.Fields.reset hi

end Sys2Proof
end

section
/-! A word of the buffer memory (20_memory.md R63, R65): which word a read returns, and which byte its bits are. -/

namespace Sys2Proof.Machine

/-! ### The bytes of a word -/

section
variable (b0 b1 b2 b3 : Byte)

theorem extractLsb'_byte0 : (b3 ++ b2 ++ b1 ++ b0 : Word).extractLsb' 0 8 = b0 := BitVec.extractLsb'_append_eq_right

theorem extractLsb'_byte1 : (b3 ++ b2 ++ b1 ++ b0 : Word).extractLsb' 8 8 = b1 := by
  rw [BitVec.extractLsb'_append_eq_of_le (by decide)]
  exact BitVec.extractLsb'_append_eq_right

theorem extractLsb'_byte2 : (b3 ++ b2 ++ b1 ++ b0 : Word).extractLsb' 16 8 = b2 := by
  repeat rw [BitVec.extractLsb'_append_eq_of_le (by decide)]
  exact BitVec.extractLsb'_append_eq_right

theorem extractLsb'_byte3 : (b3 ++ b2 ++ b1 ++ b0 : Word).extractLsb' 24 8 = b3 := by
  repeat rw [BitVec.extractLsb'_append_eq_of_le (by decide)]
  exact BitVec.extractLsb'_eq_self

end

/-- R63: the word that an aligned read of four written bytes inside the buffers returns. -/
theorem memRead_eq_ok {p : Params} {m : Memory} {a : Word} {b0 b1 b2 b3 : Byte} (ha : a.toNat % 4 = 0)
    (hb : inBuffer p a.toNat 4 = true) (h0 : m.read a.toNat = some b0) (h1 : m.read (a.toNat + 1) = some b1)
    (h2 : m.read (a.toNat + 2) = some b2) (h3 : m.read (a.toNat + 3) = some b3) :
    memRead p m a = .ok (b3 ++ b2 ++ b1 ++ b0) := by
  simp [memRead, ha, hb, h0, h1, h2, h3]

/-- Settles O17: the four bytes lie in the region of one buffer, so that the read returns them as one word, the byte at the
lowest address in the lowest bits. -/
theorem wordReadsAreLittleEndian : Obligations.WordReadsAreLittleEndian := by
  intro p m a i b0 b1 b2 b3 ha hlo hhi h0 h1 h2 h3
  exact ⟨b3 ++ b2 ++ b1 ++ b0, memRead_eq_ok ha (inBuffer_of_mem_region i hlo hhi) h0 h1 h2 h3,
    extractLsb'_byte0 b0 b1 b2 b3, extractLsb'_byte1 b0 b1 b2 b3, extractLsb'_byte2 b0 b1 b2 b3,
    extractLsb'_byte3 b0 b1 b2 b3⟩

end Sys2Proof.Machine
end

section
/-! The output order (20_memory.md R77, 40_serial_output_engine.md R123, 41_transfer_engine.md R134): the words moved are
the words emitted followed by the queue, which is kept because every action does one of four things to the output. -/

namespace Sys2Proof.Machine

variable {s t : State}

/-! ### The words of a trace -/

/-- The word that the record of an action counts as moved (R133). -/
def movedWord : Instr → Option Word
  | .dmaMove _ w => some w
  | _ => none

/-- The word that the record of an action counts as emitted (R123). -/
def emittedWord : Instr → Option Word
  | .soeEmit w => some w
  | _ => none

theorem wordsMoved_snoc (l : List Record) {i : Instr} (hi : i.wellFormed = true) :
    wordsMoved (l ++ [encode i]) = wordsMoved l ++ (movedWord i).toList := by
  have hone : wordsMoved [encode i] = (movedWord i).toList := by
    simp only [wordsMoved, List.filterMap_cons, decode_encode i hi]
    cases i <;> rfl
  rw [← hone]
  exact List.filterMap_append

theorem wordsEmitted_snoc (l : List Record) {i : Instr} (hi : i.wellFormed = true) :
    wordsEmitted (l ++ [encode i]) = wordsEmitted l ++ (emittedWord i).toList := by
  have hone : wordsEmitted [encode i] = (emittedWord i).toList := by
    simp only [wordsEmitted, List.filterMap_cons, decode_encode i hi]
    cases i <;> rfl
  rw [← hone]
  exact List.filterMap_append

/-! ### What an action does to the output -/

/-- From `s` to `t` the engine is unchanged, and the one record appended neither moves nor emits a word. -/
def OutputKept (s t : State) : Prop :=
  t.soe = s.soe ∧ ∃ j : Instr, j.wellFormed = true ∧ movedWord j = none ∧ emittedWord j = none ∧
    t.trace = s.trace ++ [encode j]

/-- From `s` to `t` one word is moved to the end of the queue (R133). -/
def WordMoved (s t : State) : Prop :=
  ∃ f w, t.soe = { s.soe with q := s.soe.q ++ [w] } ∧ t.trace = s.trace ++ [encode (.dmaMove f w)]

/-- From `s` to `t` the head of the queue leaves the line (R123). -/
def WordEmitted (s t : State) : Prop :=
  ∃ w, s.soe.q = w :: t.soe.q ∧ t.soe.out = s.soe.out ++ shiftBits s.params.shiftOrder w ∧
    t.trace = s.trace ++ [encode (.soeEmit w)]

/-- The output of `t` is that of a machine just reset (R47, R230). -/
def OutputCleared (t : State) : Prop := t.soe.q = [] ∧ t.soe.out = [] ∧ t.trace = [encode .reset]

/-- R140: a write to a host register leaves the output. -/
theorem State.hostStore_output (s : State) (ofs : BitVec 8) (v : Word) :
    (s.hostStore ofs v).soe = s.soe ∧ (s.hostStore ofs v).trace = s.trace := by
  rcases s.hostStore_cases ofs v with h | ⟨_, _, h⟩ <;> rw [h] <;> exact ⟨rfl, rfl⟩

/-- Only `DMA_MOVE`, `SOE_EMIT` and `RESET` touch the output; every other action appends its record and no more. -/
theorem Effect.output_cases {i : Instr} (h : Effect i s t) :
    OutputKept s t ∨ WordMoved s t ∨ WordEmitted s t ∨ OutputCleared t := by
  cases i with
  | startOpen | openFail | fillOk _ _ | closeDone | srcCloseRsp =>
    obtain ⟨_, rfl⟩ := h
    exact .inl ⟨rfl, _, rfl, rfl, rfl, rfl⟩
  | primeErr | primeEmpty | fillReq _ _ | fillErr _ | fillEos _ | hostRead _ _ =>
    obtain ⟨_, _, rfl⟩ := h
    exact .inl ⟨rfl, _, rfl, rfl, rfl, rfl⟩
  | openOk _ | primeShort _ | fillShort _ _ =>
    obtain ⟨_, _, _, rfl⟩ := h
    exact .inl ⟨rfl, _, rfl, rfl, rfl, rfl⟩
  | waitIssue _ _ =>
    obtain ⟨_, _, _, _, rfl⟩ := h
    exact .inl ⟨rfl, _, rfl, rfl, rfl, rfl⟩
  | primeIssue _ =>
    obtain ⟨_, _, _, _, _, rfl⟩ := h
    exact .inl ⟨rfl, _, rfl, rfl, rfl, rfl⟩
  | srcReadRsp _ _ _ =>
    obtain ⟨_, _, _, _, m, _, rfl⟩ := h
    exact .inl ⟨rfl, _, rfl, rfl, rfl, rfl⟩
  | srcOpenRsp err handle =>
    obtain ⟨_, rfl⟩ := h
    exact .inl ⟨rfl, _, by cases err <;> simp [Instr.wellFormed], rfl, rfl, rfl⟩
  | hostWrite ofs v =>
    obtain ⟨_, _, rfl⟩ := h
    obtain ⟨hsoe, htrace⟩ := s.hostStore_output ofs v
    exact .inl ⟨hsoe, .hostWrite ofs v, rfl, rfl, rfl, by rw [State.emit_trace, htrace]⟩
  | dmaMove _ _ =>
    obtain ⟨_, w, _, rfl⟩ := h
    exact .inr (.inl ⟨s.dma.buf, w, rfl, rfl⟩)
  | soeEmit _ =>
    obtain ⟨w, q, hq, rfl⟩ := h
    exact .inr (.inr (.inl ⟨w, hq, rfl, rfl⟩))
  | reset =>
    cases h
    exact .inr (.inr (.inr ⟨rfl, rfl, rfl⟩))

/-! ### Each keeps the output order -/

theorem State.fifo_of_outputKept (hs : s.fifo) (hp : t.params = s.params) (h : OutputKept s t) : t.fifo := by
  obtain ⟨hsoe, j, hj, hm, he, htrace⟩ := h
  simpa [State.fifo, htrace, wordsMoved_snoc _ hj, wordsEmitted_snoc _ hj, hm, he, hsoe, hp] using hs

/-- R77: the word moved is the last of the words moved and the last of the queue. -/
theorem State.fifo_of_wordMoved (hs : s.fifo) (hp : t.params = s.params) (h : WordMoved s t) : t.fifo := by
  obtain ⟨f, w, hsoe, htrace⟩ := h
  obtain ⟨horder, hbits⟩ := hs
  have hm : wordsMoved t.trace = wordsMoved s.trace ++ [w] := htrace ▸ wordsMoved_snoc _ rfl
  have he : wordsEmitted t.trace = wordsEmitted s.trace := by
    rw [htrace, wordsEmitted_snoc _ rfl]
    exact List.append_nil _
  constructor
  · rw [hm, he, horder, hsoe, List.append_assoc]
  · rw [he, hp, hsoe, hbits]

/-- R77, R123: the word emitted goes from the head of the queue to the end of the words emitted, and its bits to the end of
the line's. -/
theorem State.fifo_of_wordEmitted (hs : s.fifo) (hp : t.params = s.params) (h : WordEmitted s t) : t.fifo := by
  obtain ⟨w, hq, hout, htrace⟩ := h
  obtain ⟨horder, hbits⟩ := hs
  have hm : wordsMoved t.trace = wordsMoved s.trace := by
    rw [htrace, wordsMoved_snoc _ rfl]
    exact List.append_nil _
  have he : wordsEmitted t.trace = wordsEmitted s.trace ++ [w] := htrace ▸ wordsEmitted_snoc _ rfl
  constructor
  · rw [hm, he, horder, hq, List.append_assoc, List.singleton_append]
  · rw [he, hp, hout, hbits, List.flatMap_append, List.flatMap_singleton]

theorem State.fifo_of_outputCleared (h : OutputCleared t) : t.fifo := by
  obtain ⟨hq, hout, htrace⟩ := h
  have hm : wordsMoved t.trace = [] := htrace ▸ wordsMoved_snoc [] rfl
  have he : wordsEmitted t.trace = [] := htrace ▸ wordsEmitted_snoc [] rfl
  simp [State.fifo, hm, he, hq, hout]

theorem exec_fifo (hs : s.fifo) (i : Instr) (h : exec i s = .next t) : t.fifo := by
  rcases exec_cases i h with rfl | rfl | ⟨f, rfl⟩ | h
  · exact hs
  · exact hs
  · exact hs
  · rcases h.output_cases with ho | ho | ho | ho
    · exact State.fifo_of_outputKept hs h.params_eq ho
    · exact State.fifo_of_wordMoved hs h.params_eq ho
    · exact State.fifo_of_wordEmitted hs h.params_eq ho
    · exact State.fifo_of_outputCleared ho

theorem takeTurn_fifo (hs : s.fifo) (τ : Turn) (h : takeTurn τ s = .next t) : t.fifo := by
  rcases takeTurn_forms τ s with ⟨i, hi⟩ | hi | hi | hi <;> rw [hi] at h
  · exact exec_fifo hs i h
  · cases h
    exact hs
  · cases h
    exact hs
  · cases h
    exact hs

/-- Settles O58: taking the turn off the schedule touches neither trace nor output, and the turn keeps their order. -/
theorem everyStepKeepsTheOutputOrder : Obligations.EveryStepKeepsTheOutputOrder := by
  intro s t hs h
  have hs' : s.afterTurn.fifo := by simpa [State.fifo] using hs
  exact takeTurn_fifo hs' s.nextTurn h

end Sys2Proof.Machine
end

section
/-! The two directions of the record format (30_encoding.md R92, R96, R110): the record of an action decodes to it, and a
record that decodes is the record of its action. What is INVALID follows from the fields that actions have. -/

namespace Sys2Proof

/-- Settles O1: the fields of a record are read back where they were packed, and they decode to the action. -/
theorem decodingAnEncodedActionGivesItBack : Obligations.DecodingAnEncodedActionGivesItBack := decode_encode

/-- Settles O3: the fields of `packRecord`, for the fields of the action. -/
theorem recordFieldsStandInTheirBits : Obligations.RecordFieldsStandInTheirBits := fun _ =>
  ⟨packRecord_act .., (BitVec.getLsbD_eq_getElem _).trans (packRecord_buf ..),
    (BitVec.getLsbD_eq_getElem _).trans (packRecord_err ..), packRecord_reserved_low .., packRecord_ofs ..,
    packRecord_reserved_high .., packRecord_arg ..⟩

/-! ### A record is packed from its fields -/

/-- One bit, as a vector of length 1. -/
theorem ofBool_getLsbD_eq_extractLsb' {n : Nat} (x : BitVec n) (k : Nat) :
    BitVec.ofBool (x.getLsbD k) = x.extractLsb' k 1 := by
  ext j hj
  simp [show j = 0 by omega]

/-- R92: a record whose reserved bits are 0 is packed from the fields the decoder reads. -/
theorem packRecord_fields {r : Record} (hlow : r.extractLsb' 10 6 = 0#6) (hhigh : r.extractLsb' 24 8 = 0#8) :
    packRecord (r.extractLsb' 0 8) (r.getLsbD 8) (r.getLsbD 9) (r.extractLsb' 16 8) (r.extractLsb' 32 32) = r := by
  rw [packRecord, ← hlow, ← hhigh, ofBool_getLsbD_eq_extractLsb', ofBool_getLsbD_eq_extractLsb']
  repeat rw [BitVec.extractLsb'_append_extractLsb'_eq_extractLsb' (by decide)]
  exact BitVec.extractLsb'_eq_self

/-! ### Fields that decode are those of the action -/

/-- R93, R94: the fields that decode to an action are the fields of that action, which is well-formed. -/
theorem decodeFields_eq_some {act : BitVec 8} {buf err : Bool} {ofs : BitVec 8} {arg : Word} {i : Instr}
    (h : decodeFields act buf err ofs arg = some i) :
    i.wellFormed = true ∧ actCode i = act ∧ bufBit i = buf ∧ errBit i = err ∧ ofsField i = ofs ∧ argField i = arg := by
  unfold decodeFields at h
  split at h
  case h_23 => cases h
  all_goals
    obtain ⟨hc, hi⟩ := Option.ite_none_right_eq_some.1 h
    cases hi
    simp only [Bool.and_eq_true, Bool.or_eq_true, Bool.not_eq_true', beq_iff_eq] at hc
    simp [Instr.wellFormed, actCode, bufBit, errBit, ofsField, argField, hc]

/-- R92, R110: the decoder drops no bit of a record that it accepts. -/
theorem encode_eq_of_decode {r : Record} {i : Instr} (h : decode r = some i) : i.wellFormed = true ∧ encode i = r := by
  unfold decode at h
  obtain ⟨hres, hfields⟩ := Option.ite_none_right_eq_some.1 h
  obtain ⟨hlow, hhigh⟩ : r.extractLsb' 10 6 = 0#6 ∧ r.extractLsb' 24 8 = 0#8 := by simpa using hres
  obtain ⟨hwf, hact, hbuf, herr, hofs, harg⟩ := decodeFields_eq_some hfields
  refine ⟨hwf, ?_⟩
  rw [encode, hact, hbuf, herr, hofs, harg, packRecord_fields hlow hhigh]

/-- Settles O2: the record is packed from its fields, which are those of the action. -/
theorem encodingADecodedRecordGivesItBack : Obligations.EncodingADecodedRecordGivesItBack :=
  fun _ _ h => encode_eq_of_decode h

/-! ### What is INVALID -/

/-- The action map (R90). -/
theorem actCode_mem (i : Instr) :
    actCode i ∈
      [0x01#8, 0x02#8, 0x03#8, 0x10#8, 0x11#8, 0x12#8, 0x13#8, 0x20#8, 0x21#8, 0x22#8, 0x23#8, 0x24#8, 0x25#8, 0x30#8,
        0x40#8, 0x41#8, 0x50#8, 0x60#8, 0x70#8, 0x71#8, 0x72#8, 0xF0#8] := by
  cases i <;> simp [actCode]

/-- R94: the actions that have a buffer. -/
theorem actCode_mem_of_bufBit {i : Instr} (h : bufBit i = true) :
    actCode i ∈ [0x20#8, 0x21#8, 0x22#8, 0x23#8, 0x24#8, 0x25#8, 0x50#8, 0x71#8] := by
  cases i with
  | fillReq _ _ | fillErr _ | fillEos _ | fillShort _ _ | fillOk _ _ | waitIssue _ _ | dmaMove _ _ | srcReadRsp _ _ _ =>
    simp [actCode]
  | _ => cases h

/-- R94: the actions that can carry an error. -/
theorem actCode_mem_of_errBit {i : Instr} (h : errBit i = true) :
    actCode i ∈ [0x03#8, 0x10#8, 0x21#8, 0x70#8, 0x71#8] := by
  cases i with
  | openFail | primeErr | fillErr _ | srcOpenRsp _ _ | srcReadRsp _ _ _ => simp [actCode]
  | _ => cases h

/-- R92: the actions that have a register offset. -/
theorem actCode_mem_of_ofsField {i : Instr} (h : ofsField i ≠ 0#8) : actCode i ∈ [0x40#8, 0x41#8] := by
  cases i with
  | hostWrite _ _ | hostRead _ _ => simp [actCode]
  | _ => exact absurd rfl h

/-- Settles O4: were it to decode, it would be the record of an action, whose fields R90, R92 and R94 restrict. -/
theorem reservedRecordsAreInvalid : Obligations.ReservedRecordsAreInvalid := by
  intro r hr
  rw [Option.eq_none_iff_forall_ne_some]
  intro i hd
  obtain ⟨_, rfl⟩ := encode_eq_of_decode hd
  obtain ⟨hact, hbuf, herr, hlow, hofs, hhigh, _⟩ := recordFieldsStandInTheirBits i
  rw [hact, hbuf, herr, hlow, hofs, hhigh] at hr
  rcases hr with hc | hc | hc | ⟨hb, hc⟩ | ⟨he, hc⟩ | ⟨ho, hc⟩
  · exact hc (actCode_mem i)
  · exact hc rfl
  · exact hc rfl
  · exact hc (actCode_mem_of_bufBit hb)
  · exact hc (actCode_mem_of_errBit he)
  · exact hc (actCode_mem_of_ofsField ho)

end Sys2Proof
end

section
/-! Raw accesses of the host (30_encoding.md R89): how the address and the width sort them. -/

namespace Sys2Proof.Machine

variable {s : State}

/-! ### Offsets and the window, in numbers -/

theorem offsetInside_iff (ofs : BitVec 8) : offsetInside ofs = true ↔ ofs.toNat < 0x20 := by
  simp [offsetInside, BitVec.lt_def]

theorem offsetAligned_iff (ofs : BitVec 8) : offsetAligned ofs = true ↔ ofs.toNat % 4 = 0 := by
  simp [offsetAligned, BitVec.toNat_eq]

theorem inWindow_iff (p : Params) (a : Word) :
    inWindow p a = true ↔ p.regBase.toNat ≤ a.toNat ∧ a.toNat < p.regBase.toNat + 0x20 := by
  simp [inWindow]

/-- R6: the register window begins at a multiple of 4. -/
theorem regBase_aligned (p : ValidParams) : p.regBase.toNat % 4 = 0 := by
  have hp := p.ok
  simp only [Params.valid, Bool.and_eq_true, beq_iff_eq] at hp
  simp [hp]

/-- R85: in the window no bit of the offset is lost. -/
theorem toNat_windowOffset {p : Params} {a : Word} (hhi : a.toNat < p.regBase.toNat + 0x20) :
    (windowOffset p a).toNat = a.toNat - p.regBase.toNat := by
  rw [windowOffset, BitVec.toNat_ofNat]
  omega

theorem windowOffset_inside {p : Params} {a : Word} (hhi : a.toNat < p.regBase.toNat + 0x20) :
    offsetInside (windowOffset p a) = true := by
  rw [offsetInside_iff, toNat_windowOffset hhi]
  omega

/-- R6, R89: the window begins aligned, so that the offset of a misaligned address is misaligned. -/
theorem windowOffset_misaligned (p : ValidParams) {a : Word} (hlo : p.regBase.toNat ≤ a.toNat)
    (hhi : a.toNat < p.regBase.toNat + 0x20) (ha : a.toNat % 4 ≠ 0) :
    offsetAligned (windowOffset p.toParams a) = false := by
  have hbase := regBase_aligned p
  rw [Bool.eq_false_iff, Ne, offsetAligned_iff, toNat_windowOffset hhi]
  omega

/-! ### The three sorts of access -/

theorem hostAccessed_refused {ofs : BitVec 8} (hin : offsetInside ofs = true) (hal : offsetAligned ofs = false)
    (u : State) : hostAccessed s ofs u = .next s.refuse := by
  simp [hostAccessed, hin, hal]

/-- R89: outside the window an access is not the block's. -/
theorem takeHostAccess_outside {acc : HostAccess} (hin : inWindow s.params.toParams acc.addr = false) :
    takeHostAccess acc s = .next s := by
  simp [takeHostAccess, hin]

/-- R89: only a 32-bit access has a meaning. -/
theorem takeHostAccess_otherWidth {acc : HostAccess} (hin : inWindow s.params.toParams acc.addr = true)
    (hw : acc.width ≠ 32) : takeHostAccess acc s = .next s.refuse := by
  simp [takeHostAccess, hin, hw]

/-- R89: a 32-bit write in the window is `HOST_WRITE` at its offset. -/
theorem takeHostAccess_write {acc : HostAccess} {v : Word} (hin : inWindow s.params.toParams acc.addr = true)
    (hw : acc.width = 32) (hv : acc.write = some v) :
    takeHostAccess acc s = exec (.hostWrite (windowOffset s.params.toParams acc.addr) v) s := by
  simp [takeHostAccess, hin, hw, hv]

/-- R89: a 32-bit read in the window is `HOST_READ` at its offset. -/
theorem takeHostAccess_read {acc : HostAccess} (hin : inWindow s.params.toParams acc.addr = true)
    (hw : acc.width = 32) (hv : acc.write = none) :
    takeHostAccess acc s = exec (.hostRead (windowOffset s.params.toParams acc.addr) 0#32) s := by
  simp [takeHostAccess, hin, hw, hv]

/-- R89: a misaligned 32-bit access is a host action that is refused. -/
theorem takeHostAccess_misaligned {acc : HostAccess} (hin : inWindow s.params.toParams acc.addr = true)
    (hw : acc.width = 32) (ha : acc.addr.toNat % 4 ≠ 0) : takeHostAccess acc s = .next s.refuse := by
  obtain ⟨hlo, hhi⟩ := (inWindow_iff ..).1 hin
  have hinside := windowOffset_inside hhi
  have hmisaligned := windowOffset_misaligned s.params hlo hhi ha
  cases hv : acc.write with
  | some v => exact (takeHostAccess_write hin hw hv).trans (hostAccessed_refused hinside hmisaligned _)
  | none => exact (takeHostAccess_read hin hw hv).trans (hostAccessed_refused hinside hmisaligned _)

/-- Settles O8: the window by the address, then the width, then the alignment of the offset. -/
theorem hostAccessesAreSortedByTheirAddressAndWidth : Obligations.HostAccessesAreSortedByTheirAddressAndWidth := by
  intro s acc
  refine ⟨fun ⟨hlo, hhi, hbad⟩ => ?_, fun ⟨hlo, hhi, _, hw⟩ => ?_, fun hout => takeHostAccess_outside ?_⟩
  · have hin := (inWindow_iff ..).2 ⟨hlo, hhi⟩
    by_cases hw : acc.width = 32
    · exact takeHostAccess_misaligned hin hw (hbad.resolve_right (not_not.2 hw))
    · exact takeHostAccess_otherWidth hin hw
  · have hin := (inWindow_iff ..).2 ⟨hlo, hhi⟩
    cases hv : acc.write with
    | some v => exact takeHostAccess_write hin hw hv
    | none => exact takeHostAccess_read hin hw hv
  · rw [Bool.eq_false_iff, Ne, inWindow_iff]
    omega

end Sys2Proof.Machine
end

section
/-! The host's view of the state (30_encoding.md R86): where each field of `STATUS` stands. -/

namespace Sys2Proof.Machine

/-! ### The fields of `STATUS` -/

variable (s : State)

theorem State.status_st : s.status.extractLsb' 0 3 = s.sch.st.code := BitVec.extractLsb'_append_eq_right

theorem State.status_ph : s.status.extractLsb' 3 3 = s.sch.ph.code := by
  rw [State.status, BitVec.extractLsb'_append_eq_of_le (by decide)]
  exact BitVec.extractLsb'_append_eq_right

theorem State.status_cause : s.status.extractLsb' 16 3 = s.sch.cause.code := by
  unfold State.status
  repeat rw [BitVec.extractLsb'_append_eq_of_le (by decide)]
  exact BitVec.extractLsb'_append_eq_right

theorem State.status_reserved : s.status.extractLsb' 19 13 = 0#13 := by
  unfold State.status
  repeat rw [BitVec.extractLsb'_append_eq_of_le (by decide)]
  exact BitVec.extractLsb'_eq_self

/-- R86: the ten bits between `PH` and `CAUSE`. -/
theorem State.status_bits :
    s.status.getLsbD 6 = s.sch.active.toBit ∧ s.status.getLsbD 7 = s.sch.ownA ∧ s.status.getLsbD 8 = s.sch.ownB ∧
      s.status.getLsbD 9 = s.dma.busy ∧ s.status.getLsbD 10 = s.dma.done ∧ s.status.getLsbD 11 = s.draining ∧
      s.status.getLsbD 12 = s.sch.hvalid ∧ s.status.getLsbD 13 = s.sch.startPend ∧
      s.status.getLsbD 14 = s.sch.req.valid ∧ s.status.getLsbD 15 = s.sch.rsp.valid := by
  and_intros
  all_goals
    rw [← BitVec.ofBool_eq_iff_eq, ofBool_getLsbD_eq_extractLsb', State.status]
    repeat rw [BitVec.extractLsb'_append_eq_of_le (by decide)]
    exact BitVec.extractLsb'_append_eq_right

/-! ### What a field shows -/

/-- R24: bit value 1 is buffer B. -/
theorem toBit_eq_decide (i : Buf) : i.toBit = decide (i = .b) := by cases i <;> rfl

/-- R34: `DRAINING` names the two terminal states. -/
theorem State.draining_eq :
    s.draining = (s.dma.busy && (decide (s.sch.st = .done) || decide (s.sch.st = .halted))) := by
  unfold State.draining
  cases s.sch.st <;> rfl

/-- R22: no control pair has a reserved code of `ST`. -/
theorem code_le_of_pairAllowed {st : St} {ph : Ph} (h : pairAllowed st ph = true) : st.code.toNat ≤ 4 := by
  cases st with
  | idle | primed | streaming | done | halted => decide
  | reserved5 | reserved6 | reserved7 => cases h

/-- R205: no cause that is written has a reserved code. -/
theorem Cause.code_le_of_allowed {c : Cause} (h : c.allowed = true) : c.code.toNat ≤ 4 := by
  cases c with
  | none | endOfSource | sourceOpenError | emptySource | sourceReadError => decide
  | reserved5 | reserved6 | reserved7 => cases h

/-- R22, R205: a sound state shows codes up to 4. -/
theorem Sch.codes_le_of_sound {c : Sch} (h : c.sound = true) : c.st.code.toNat ≤ 4 ∧ c.cause.code.toNat ≤ 4 := by
  simp only [Sch.sound, Bool.and_eq_true] at h
  obtain ⟨⟨hpair, hcause⟩, _⟩ := h
  exact ⟨code_le_of_pairAllowed hpair, Cause.code_le_of_allowed hcause⟩

/-- Settles O35: field by field, with the numbers of R20, R21 and R29. -/
theorem statusFields : Obligations.StatusFields := by
  intro s
  obtain ⟨hactive, hownA, hownB, hbusy, hdone, hdraining, hhvalid, hstart, hreq, hrsp⟩ := s.status_bits
  rw [toBit_eq_decide] at hactive
  rw [s.draining_eq] at hdraining
  refine ⟨s.status_st.trans rfl, s.status_ph.trans rfl, hactive, hownA, hownB, hbusy, hdone, hdraining, hhvalid, hstart,
    hreq, hrsp, s.status_cause.trans rfl, s.status_reserved, fun hs => ?_⟩
  rw [s.status_st, s.status_cause]
  exact Sch.codes_le_of_sound hs

end Sys2Proof.Machine
end

section
/-! Whose step an action is (30_encoding.md R90): the agents and the samples of 95_test_vectors.md. -/

namespace Sys2Proof.Machine

/-- R90: the action map lists the codes by agent. -/
theorem agentOf_eq_of_actCode (i : Instr) :
    agentOf i =
      if actCode i < 0x40#8 then some .sch
      else if actCode i < 0x50#8 then some .host
      else if actCode i < 0x60#8 then some .dma
      else if actCode i < 0x70#8 then some .soe
      else if actCode i < 0x80#8 then some .src
      else none := by
  cases i <;> rfl

theorem isSchedulerAction_iff (i : Instr) : isSchedulerAction i = true ↔ agentOf i = some .sch := by
  unfold isSchedulerAction
  rcases agentOf i with _ | a
  · simp
  · cases a <;> simp

theorem isHostAction_iff (i : Instr) : isHostAction i = true ↔ agentOf i = some .host ∨ agentOf i = none := by
  unfold isHostAction
  rcases agentOf i with _ | a
  · simp
  · cases a <;> simp

/-- Settles O5: the samples are evaluated; the agents are those of the codes. -/
theorem sampleRecordsDecode : Obligations.SampleRecordsDecode :=
  ⟨by decide, by decide, by decide, by decide, by decide, by decide, by decide,
    fun i => ⟨agentOf_eq_of_actCode i, isSchedulerAction_iff i, isHostAction_iff i⟩⟩

end Sys2Proof.Machine
end

section
/-! The trace (30_encoding.md R95, R96): a step appends at most one record, which is that of a well-formed action. -/

namespace Sys2Proof.Machine

variable {s t : State}

/-- From `s` to `t` the trace is left, one record of a well-formed action is appended, or the trace starts again with the
record of the reset (R230). -/
def TraceStep (s t : State) : Prop :=
  t.trace = s.trace ∨ (∃ j : Instr, j.wellFormed = true ∧ t.trace = s.trace ++ [encode j]) ∨ t.trace = [encode .reset]

/-- R95: what an action does to the output says what it records. -/
theorem Effect.traceStep {i : Instr} (h : Effect i s t) : TraceStep s t := by
  rcases h.output_cases with ⟨_, j, hj, _, _, ht⟩ | ⟨f, w, _, ht⟩ | ⟨w, _, _, ht⟩ | ⟨_, _, ht⟩
  · exact .inr (.inl ⟨j, hj, ht⟩)
  · exact .inr (.inl ⟨.dmaMove f w, rfl, ht⟩)
  · exact .inr (.inl ⟨.soeEmit w, rfl, ht⟩)
  · exact .inr (.inr ht)

theorem exec_traceStep (i : Instr) (h : exec i s = .next t) : TraceStep s t := by
  rcases exec_cases i h with rfl | rfl | ⟨f, rfl⟩ | h
  · exact .inl rfl
  · exact .inl s.refuse_trace
  · exact .inl (s.raise_trace f)
  · exact h.traceStep

theorem takeTurn_traceStep (τ : Turn) (h : takeTurn τ s = .next t) : TraceStep s t := by
  rcases takeTurn_forms τ s with ⟨i, hi⟩ | hi | hi | hi <;> rw [hi] at h
  · exact exec_traceStep i h
  · cases h
    exact .inl rfl
  · cases h
    exact .inl s.refuse_trace
  · cases h
    exact .inl (s.raise_trace _)

/-- Taking the turn off the schedule leaves the trace. -/
theorem step_traceStep (h : step s = .next t) : TraceStep s t := by
  have ht := takeTurn_traceStep s.nextTurn h
  rwa [TraceStep, s.afterTurn_trace] at ht

/-- R96: the record of a well-formed action decodes. -/
theorem TraceStep.traceValid (h : TraceStep s t) (hs : s.traceValid) : t.traceValid := by
  intro r hr
  rcases h with ht | ⟨j, hj, ht⟩ | ht <;> rw [ht] at hr
  · exact hs r hr
  · rcases List.mem_append.1 hr with hr | hr
    · exact hs r hr
    · rw [List.mem_singleton.1 hr, decode_encode j hj]
      rfl
  · rw [List.mem_singleton.1 hr, decode_encode .reset rfl]
    rfl

/-- Settles O59: what a step does to the trace, and that the record it appends decodes. -/
theorem noStepProducesAnInvalidRecord : Obligations.NoStepProducesAnInvalidRecord := by
  intro s t hs h
  have ht := step_traceStep h
  refine ⟨ht.traceValid hs, ?_⟩
  rcases ht with ht | ⟨j, _, ht⟩ | ht
  · exact .inl ht
  · exact .inr (.inl ⟨encode j, ht⟩)
  · exact .inr (.inr ht)

end Sys2Proof.Machine
end

section
/-! The descriptor of a transfer (30_encoding.md R98, R99): what `Issue` writes to the channel. -/

namespace Sys2Proof.Machine

/-- R131: when the four checks of `Issue` pass, in the number of words that fit a buffer. -/
theorem issue_of_fits {s : State} {i : Buf} {w : Word} (hbusy : s.dma.busy = false) (hw : w ≠ 0#32)
    (hfits : w.toNat ≤ s.params.bufferSize.toNat / 4) (hown : s.sch.own i = false) :
    issue i w s = .ok (s.trigger i w) := by
  have hrange : ¬wordCount s.params.bufferSize < w := by
    rw [BitVec.lt_def, toNat_wordCount]
    exact Nat.not_lt.2 hfits
  exact issue_succeeds hbusy hw hrange hown

/-- Settles O16: the four checks pass, and the descriptor is loaded for either buffer. -/
theorem issueConfiguresAndTriggersTheChannel : Obligations.IssueConfiguresAndTriggersTheChannel := by
  intro s i w hbusy hw hfits hown
  rw [issue_of_fits hbusy hw hfits hown, State.trigger, Dma.load_descriptor]
  cases i with
  | a => exact ⟨rfl, rfl⟩
  | b => exact ⟨rfl, rfl⟩

end Sys2Proof.Machine
end

section
/-! The Serial Output Engine (40_serial_output_engine.md R121, R123): the queue, and the word that leaves it. -/

namespace Sys2Proof

/-- R92: `ARG` is the high word of a record, and the other fields make up the low word. -/
theorem packRecord_eq_append (act : BitVec 8) (buf err : Bool) (ofs : BitVec 8) (arg : Word) :
    packRecord act buf err ofs arg =
      arg ++ (0#8 ++ ofs ++ 0#6 ++ BitVec.ofBool err ++ BitVec.ofBool buf ++ act : Word) := by
  simp only [packRecord, BitVec.append_assoc, BitVec.cast_eq]

/-- R92, R93: the record of an emission. -/
theorem encode_soeEmit (w : Word) : encode (.soeEmit w) = w ++ 0x00000060#32 :=
  packRecord_eq_append 0x60#8 false false 0#8 w

end Sys2Proof

namespace Sys2Proof.Machine

/-! ### The queue -/

/-- R121: the queue holds `P_QUEUE_DEPTH` words and no more. -/
theorem queuePush_overflows {p : Params} {q : List Word} {w : Word} (h : p.queueDepth ≤ q.length) :
    queuePush p q w = .error .queueOverflow := if_pos h

theorem queuePop_cons (w : Word) (q : List Word) : queuePop (w :: q) = some (w, q) := rfl

/-- Settles O18: a push by the room in the queue, and a pop from its head. -/
theorem theQueueIsFirstInFirstOut : Obligations.TheQueueIsFirstInFirstOut := fun _ q w =>
  ⟨queuePush_overflows, queuePush_succeeds, queuePop_cons w q⟩

/-! ### The bits of a word -/

theorem map_range_eq_ofFn {α : Type} (f : Nat → α) (n : Nat) :
    (List.range n).map f = List.ofFn fun k : Fin n => f k := by
  rw [List.ofFn_eq_map, ← List.map_coe_finRange_eq_range, List.map_map]
  rfl

theorem getLastD_map_range_succ {α : Type} (f : Nat → α) (n : Nat) (d : α) :
    ((List.range (n + 1)).map f).getLastD d = f n := by
  rw [List.range_succ, List.map_append, List.map_singleton, List.getLastD_concat]

/-- R123, `MSB_FIRST`: from bit 31 down to bit 0. -/
theorem shiftBits_msbFirst (w : Word) : shiftBits .msbFirst w = List.ofFn fun k : Fin 32 => w.getLsbD (31 - k) :=
  map_range_eq_ofFn (fun k => w.getLsbD (31 - k)) 32

/-- R123, `LSB_FIRST`: from bit 0 up to bit 31. -/
theorem shiftBits_lsbFirst (w : Word) : shiftBits .lsbFirst w = List.ofFn fun k : Fin 32 => w.getLsbD k :=
  map_range_eq_ofFn (fun k => w.getLsbD k) 32

theorem getLastD_shiftBits_msbFirst (w : Word) (d : Bool) : (shiftBits .msbFirst w).getLastD d = w.getLsbD 0 :=
  getLastD_map_range_succ (fun k => w.getLsbD (31 - k)) 31 d

theorem getLastD_shiftBits_lsbFirst (w : Word) (d : Bool) : (shiftBits .lsbFirst w).getLastD d = w.getLsbD 31 :=
  getLastD_map_range_succ (fun k => w.getLsbD k) 31 d

/-! ### The emission -/

theorem execSoeEmit_of_cons {s : State} {w : Word} {q : List Word} (hq : s.soe.q = w :: q) :
    execSoeEmit s = .next (s.emitted w q) := by
  rw [execSoeEmit, hq, queuePop_cons]

/-- Settles O37: with a word in the queue, its bits and the last of them in either order; with none, a hold. -/
theorem soeEmitShiftsOutTheHead : Obligations.SoeEmitShiftsOutTheHead := by
  intro s x w q
  refine ⟨fun hq => ?_, execSoeEmit_hold⟩
  have hexec : exec (.soeEmit x) s = .next (s.emitted w q) := execSoeEmit_of_cons hq
  rw [hexec, State.emitted, encode_soeEmit]
  cases s.params.shiftOrder with
  | msbFirst => rw [getLastD_shiftBits_msbFirst, shiftBits_msbFirst]
  | lsbFirst => rw [getLastD_shiftBits_lsbFirst, shiftBits_lsbFirst]

end Sys2Proof.Machine
end

section
/-! The transfer engine (41_transfer_engine.md R133, R135): what a move does to the channel and the queue, and which
actions touch the channel at all. -/

namespace Sys2Proof

/-- R92 to R94: the record of a move from buffer A. -/
theorem encode_dmaMove_a (w : Word) : encode (.dmaMove .a w) = w ++ 0x00000050#32 :=
  packRecord_eq_append 0x50#8 false false 0#8 w

/-- R92 to R94: the record of a move from buffer B, whose bit `BUF` is set. -/
theorem encode_dmaMove_b (w : Word) : encode (.dmaMove .b w) = w ++ 0x00000150#32 :=
  packRecord_eq_append 0x50#8 true false 0#8 w

end Sys2Proof

namespace Sys2Proof.Machine

variable {s t : State}

/-! ### One move -/

/-- R63: the faults of a read. -/
theorem memRead_error {p : Params} {m : Memory} {a : Word} {f : Fault} (h : memRead p m a = .error f) :
    f = .misaligned ∨ f = .busRange ∨ f = .unwrittenRead := by
  unfold memRead at h
  split at h
  · cases h
    exact .inl rfl
  · split at h
    · cases h
      exact .inr (.inl rfl)
    · split at h
      · cases h
      · cases h
        exact .inr (.inr rfl)

theorem execDmaMove_of_word {w : Word} (hc : canDmaMove s)
    (hw : memRead s.params.toParams s.bufmem s.dma.readAddr = .ok w) :
    execDmaMove s = .next (s.moved w (s.soe.q ++ [w])) := by
  simp only [execDmaMove, hw, queuePush_succeeds hc.2]
  exact attempt_ok hc

theorem execDmaMove_of_fault {f : Fault} (hc : canDmaMove s)
    (hf : memRead s.params.toParams s.bufmem s.dma.readAddr = .error f) :
    execDmaMove s = .next (s.raise f) := by
  simp only [execDmaMove, hf]
  exact attempt_error hc f

/-- R12, R133: an idle channel or a full queue holds the move. -/
theorem execDmaMove_hold (h : s.dma.busy = false ∨ s.params.queueDepth ≤ s.soe.q.length) :
    execDmaMove s = .next s := by
  refine attempt_hold ?_ _
  rintro ⟨hbusy, hroom⟩
  rcases h with hidle | hfull
  · exact Bool.noConfusion (hidle.symm.trans hbusy)
  · exact Nat.not_lt.2 hfull hroom

/-- R133: the word that leaves `COUNT` at 0 is the one moved at `COUNT` 1. -/
theorem count_sub_one_eq_zero_iff (c : Word) : c - 1#32 = 0#32 ↔ c = 1#32 := sub_eq_zero

/-- R133: a busy channel after a word, with `BUSY` and `DONE` told by the count before it. -/
theorem State.moved_dma_of_busy (hb : s.dma.busy = true) (w : Word) (q : List Word) :
    (s.moved w q).dma =
      { s.dma with
        readAddr := s.dma.readAddr + 4#32, count := s.dma.count - 1#32
        busy := decide (s.dma.count ≠ 1#32)
        done := s.dma.done || decide (s.dma.count = 1#32) } := by
  by_cases hlast : s.dma.count = 1#32
  · simp [hlast]
  · simp [count_sub_one_eq_zero_iff, hlast, hb]

/-- Settles O36: the read gives a word, which there is room for, or one of its three faults; else the move is held. -/
theorem dmaMoveMovesOneWord : Obligations.DmaMoveMovesOneWord := by
  intro s x y
  refine ⟨fun hbusy hroom => ⟨fun w hw => ?_, fun f hf => ?_⟩, execDmaMove_hold⟩
  · have hexec : exec (.dmaMove x y) s = .next (s.moved w (s.soe.q ++ [w])) :=
      execDmaMove_of_word ⟨hbusy, hroom⟩ hw
    rw [hexec, ← State.moved_dma_of_busy hbusy w (s.soe.q ++ [w]), State.moved]
    cases s.dma.buf with
    | a => rw [encode_dmaMove_a]
    | b => rw [encode_dmaMove_b]
  · have hexec : exec (.dmaMove x y) s = .next (s.raise f) := execDmaMove_of_fault ⟨hbusy, hroom⟩ hf
    rcases memRead_error hf with rfl | rfl | rfl
    · exact .inr (.inl ⟨rfl, hexec⟩)
    · exact .inl ⟨rfl, hexec⟩
    · exact .inr (.inr ⟨rfl, hexec⟩)

/-! ### The actions that touch the channel -/

/-- R140: a write to a host register leaves the channel. -/
@[simp] theorem State.hostStore_dma (s : State) (ofs : BitVec 8) (v : Word) : (s.hostStore ofs v).dma = s.dma := by
  rcases s.hostStore_cases ofs v with hw | ⟨_, _, hw⟩ <;> rw [hw]

/-- What the action `i` does to the channel from `s` to `t`: it leaves it, triggers it (R131), moves a word of it while it
is busy (R133), or resets it (R230). -/
def ChannelStep (i : Instr) (s t : State) : Prop :=
  t.dma = s.dma ∨
    (((∃ w, i = .primeIssue w) ∨ ∃ f w, i = .waitIssue f w) ∧ t.dma.busy = true) ∨
    ((∃ f w, i = .dmaMove f w) ∧ s.dma.busy = true ∧ ∃ w q, t = s.moved w q) ∨ i = .reset

theorem Effect.channelStep {i : Instr} (h : Effect i s t) : ChannelStep i s t := by
  cases i with
  | startOpen | openFail | fillOk _ _ | closeDone | srcOpenRsp _ _ | srcCloseRsp =>
    obtain ⟨_, rfl⟩ := h
    exact .inl rfl
  | primeErr | primeEmpty | fillReq _ _ | fillErr _ | fillEos _ | hostRead _ _ =>
    obtain ⟨_, _, rfl⟩ := h
    exact .inl rfl
  | openOk _ | primeShort _ | fillShort _ _ =>
    obtain ⟨_, _, _, rfl⟩ := h
    exact .inl rfl
  | hostWrite ofs v =>
    obtain ⟨_, _, rfl⟩ := h
    exact .inl (s.hostStore_dma ofs v)
  | soeEmit _ =>
    obtain ⟨w, q, _, rfl⟩ := h
    exact .inl rfl
  | srcReadRsp _ _ _ =>
    obtain ⟨_, _, _, _, m, _, rfl⟩ := h
    exact .inl rfl
  | primeIssue w =>
    obtain ⟨_, _, _, _, _, rfl⟩ := h
    exact .inr (.inl ⟨.inl ⟨w, rfl⟩, rfl⟩)
  | waitIssue f w =>
    obtain ⟨_, _, _, _, rfl⟩ := h
    exact .inr (.inl ⟨.inr ⟨f, w, rfl⟩, rfl⟩)
  | dmaMove f w =>
    obtain ⟨⟨hb, _⟩, v, _, rfl⟩ := h
    exact .inr (.inr (.inl ⟨⟨f, w, rfl⟩, hb, v, _, rfl⟩))
  | reset => exact .inr (.inr (.inr rfl))

/-- A hold, a refusal and a fault leave the channel. -/
theorem exec_channelStep (i : Instr) (h : exec i s = .next t) : ChannelStep i s t := by
  rcases exec_cases i h with rfl | rfl | ⟨f, rfl⟩ | h
  · exact .inl rfl
  · exact .inl s.refuse_dma
  · exact .inl (s.raise_dma f)
  · exact h.channelStep

/-- R133: the move after which a busy channel is idle was the last of the transfer. -/
theorem State.moved_last {w : Word} {q : List Word} (hb : s.dma.busy = true) (hidle : (s.moved w q).dma.busy = false) :
    s.dma.count = 1#32 ∧ (s.moved w q).dma.done = true := by
  rw [State.moved_dma_of_busy hb] at hidle ⊢
  have hlast : s.dma.count = 1#32 := by simpa using hidle
  exact ⟨hlast, by simp [hlast]⟩

/-- Settles O49: a channel left as it is and one just triggered stay busy, so that `BUSY` falls by a last move or a
reset. -/
theorem theChannelIsNeverCancelled : Obligations.TheChannelIsNeverCancelled := by
  intro i s t h
  rcases exec_channelStep i h with hkept | ⟨hissue, htriggered⟩ | ⟨hmove, hb, w, q, rfl⟩ | hreset
  · exact ⟨fun hne => absurd hkept hne, fun hb hidle => by simp [hkept, hb] at hidle⟩
  · refine ⟨fun _ => ?_, fun _ hidle => by simp [htriggered] at hidle⟩
    rcases hissue with hprime | hwait
    · exact .inl hprime
    · exact .inr (.inl hwait)
  · exact ⟨fun _ => .inr (.inr (.inl hmove)), fun _ hidle => .inr ⟨hmove, State.moved_last hb hidle⟩⟩
  · exact ⟨fun _ => .inr (.inr (.inr hreset)), fun _ _ => .inl hreset⟩

end Sys2Proof.Machine
end

section
/-! The host's register accesses (42_session_open.md R140, R141): what a write at one of the eight offsets leaves, and the
record a read there gives. -/

namespace Sys2Proof

/-- R92, R94: `ARG` and `OFS` with the reserved byte between them; the other fields make up the low half word. -/
theorem packRecord_eq_append_ofs (act : BitVec 8) (buf err : Bool) (ofs : BitVec 8) (arg : Word) :
    packRecord act buf err ofs arg =
      arg ++ 0#8 ++ ofs ++ (0#6 ++ BitVec.ofBool err ++ BitVec.ofBool buf ++ act : BitVec 16) := by
  simp only [packRecord, BitVec.append_assoc, BitVec.cast_eq]

/-- R92, R93: the record of a host write. -/
theorem encode_hostWrite (ofs : BitVec 8) (v : Word) :
    encode (.hostWrite ofs v) = v ++ 0#8 ++ ofs ++ 0x0040#16 :=
  packRecord_eq_append_ofs 0x40#8 false false ofs v

/-- R92, R93: the record of a host read, as the value over one word that holds the offset. -/
theorem encode_hostRead (ofs : BitVec 8) (v : Word) :
    encode (.hostRead ofs v) = v ++ (0#8 ++ ofs ++ 0x0041#16 : Word) := by
  have hfields : encode (.hostRead ofs v) = v ++ 0#8 ++ ofs ++ 0x0041#16 :=
    packRecord_eq_append_ofs 0x41#8 false false ofs v
  simp only [hfields, BitVec.append_assoc, BitVec.cast_eq]

end Sys2Proof

namespace Sys2Proof.Machine

variable {s : State}

/-- R89: an access at one of the eight offsets is done. -/
theorem hostAccessed_done {ofs : BitVec 8} (hin : offsetInside ofs = true) (hal : offsetAligned ofs = true) (u : State) :
    hostAccessed s ofs u = .next u := by
  simp [hostAccessed, hin, hal]

/-- R97: bit 0 of the command word, in numbers. -/
theorem getLsbD_zero_iff (v : Word) : v.getLsbD 0 = true ↔ v.toNat % 2 = 1 := by
  rw [BitVec.getLsbD, Nat.testBit_zero, decide_eq_true_eq]

/-- R140: a host write as one update, of `START_PEND` alone. -/
theorem State.hostStore_eq (s : State) (ofs : BitVec 8) (v : Word) :
    s.hostStore ofs v =
      { s with
        sch :=
          { s.sch with
            startPend :=
              s.sch.startPend ||
                decide (ofs = 0#8 ∧ v.toNat % 2 = 1 ∧ s.sch.st = .idle ∧ s.sch.ph = .ready) } } := by
  simp only [State.hostStore, getLsbD_zero_iff]
  split
  · next hstart => rw [decide_eq_true hstart, Bool.or_true]
  · next hother => rw [decide_eq_false hother, Bool.or_false]

/-- Settles O32: the access is done, and its write touches `START_PEND` alone. -/
theorem hostWriteOnlySetsStartPend : Obligations.HostWriteOnlySetsStartPend := by
  intro s ofs v hin hal
  have hexec : exec (.hostWrite ofs v) s = .next ((s.hostStore ofs v).emit (.hostWrite ofs v)) :=
    hostAccessed_done ((offsetInside_iff ofs).2 hin) ((offsetAligned_iff ofs).2 hal) _
  rw [hexec, State.hostStore_eq, State.emit, encode_hostWrite]

/-- R141: a read at one of the eight offsets records the value of its register. -/
theorem exec_hostRead_of_register {ofs : BitVec 8} {v : Word} (hin : offsetInside ofs = true)
    (hal : offsetAligned ofs = true) (hv : s.hostRegister ofs = v) (x : Word) :
    exec (.hostRead ofs x) s = .next { s with trace := s.trace ++ [v ++ (0#8 ++ ofs ++ 0x0041#16 : Word)] } := by
  have hexec : exec (.hostRead ofs x) s = .next (s.emit (.hostRead ofs (s.hostRegister ofs))) :=
    hostAccessed_done hin hal _
  rw [hexec, hv, State.emit, encode_hostRead]

/-- Settles O33: the eight offsets, each with the register R141 names there; `MSG` message by message. -/
theorem hostReadReturnsTheRegister : Obligations.HostReadReturnsTheRegister := by
  intro s x
  refine ⟨exec_hostRead_of_register rfl rfl rfl x, exec_hostRead_of_register rfl rfl rfl x,
    exec_hostRead_of_register rfl rfl rfl x, exec_hostRead_of_register rfl rfl rfl x,
    exec_hostRead_of_register rfl rfl rfl x, exec_hostRead_of_register rfl rfl rfl x,
    exec_hostRead_of_register rfl rfl rfl x, exec_hostRead_of_register rfl rfl ?_ x⟩
  change s.sch.msg.code.setWidth 32 = _
  cases s.sch.msg <;> rfl

end Sys2Proof.Machine
end

section
/-! Opening the source (42_session_open.md R142 to R144): the request for `open`, and the two answers to it. -/

namespace Sys2Proof

/-- R92, R93: the record of an opened source. -/
theorem encode_openOk (len : Word) : encode (.openOk len) = len ++ 0x00000002#32 :=
  packRecord_eq_append 0x02#8 false false 0#8 len

end Sys2Proof

namespace Sys2Proof.Machine

variable {s : State}

/-- R190, R209: with the request register free, a read into an owned buffer is an ownership fault. -/
theorem srcRequest_read_owned {f : Buf} {len : Word} (hreq : s.sch.req.valid = false) (hrsp : s.sch.rsp.valid = false)
    (hown : s.sch.own f = true) : srcRequest .read f len s = .error .ownership := by
  simp [srcRequest, hreq, hrsp, hown]

/-- R12, R190: a scheduler step whose request passes the two checks of `SrcRequest` posts it. -/
theorem schStep_srcRequest_posted {c : Prop} [Decidable c] {u : State} {op : SrcOp} {f : Buf} {len : Word}
    {g : State → State} (hs : s.sch.sound = true) (hc : c) (hreq : u.sch.req.valid = false)
    (hrsp : u.sch.rsp.valid = false) (hown : op = .read → u.sch.own f = false) :
    schStep s c ((srcRequest op f len u).map g) =
      .next (g { u with sch := { u.sch with req := u.request op f len } }) := by
  rw [srcRequest_succeeds hreq hrsp hown, map_ok, schStep_ok hs hc]

/-- R12, R190: a scheduler step whose read would fill an owned buffer is the ownership fault. -/
theorem schStep_srcRequest_owned {c : Prop} [Decidable c] {u : State} {f : Buf} {len : Word} {g : State → State}
    (hs : s.sch.sound = true) (hc : c) (hreq : u.sch.req.valid = false) (hrsp : u.sch.rsp.valid = false)
    (hown : u.sch.own f = true) :
    schStep s c ((srcRequest .read f len u).map g) = .next (s.raise .ownership) := by
  rw [srcRequest_read_owned hreq hrsp hown, map_error, schStep_error hs hc]

/-- Settles O20: the request is posted, as nothing is outstanding and an `open` reads into no buffer. -/
theorem startOpenRequestsOpen : Obligations.StartOpenRequestsOpen := by
  intro s hs hst hph hstart hreq hrsp
  have hc : canStartOpen s := ⟨hst, hph, hstart, hreq, hrsp⟩
  exact schStep_srcRequest_posted hs hc hreq hrsp nofun

/-- Settles O21: the response is consumed before the prime read is requested, so that the ownership of buffer A alone
decides between the request and the fault. -/
theorem openOkKeepsTheHandleAndRequestsThePrimeRead : Obligations.OpenOkKeepsTheHandleAndRequestsThePrimeRead := by
  intro s x hs hph hrsp hop herr hreq
  have hc : canOpenOk s := ⟨hph, hrsp, hop, herr⟩
  refine ⟨fun hfree => ?_, fun howned => schStep_srcRequest_owned hs hc hreq rfl howned⟩
  rw [← encode_openOk]
  exact schStep_srcRequest_posted hs hc hreq rfl fun _ => hfree

/-- Settles O22: cause entry, with no request posted. -/
theorem openFailHaltsWithoutAClose : Obligations.OpenFailHaltsWithoutAClose := by
  intro s hs hph hrsp hop herr
  have hc : canOpenFail s := ⟨hph, hrsp, hop, herr⟩
  have hexec : exec .openFail s =
      .next (((s.endSession .sourceOpenError .openFail).goto .halted .stop).emit .openFail) := schStep_ok hs hc
  rw [hexec, State.endSession_eq]
  rfl

end Sys2Proof.Machine
end

section
/-! Prime (43_prime.md R150 to R153): the four answers to the prime read. -/

namespace Sys2Proof

/-- R92, R152: the record of a short prime read. -/
theorem encode_primeShort (b : Word) : encode (.primeShort b) = b ++ 0x00000012#32 :=
  packRecord_eq_append 0x12#8 false false 0#8 b

/-- R92, R153: the record of the first transfer. -/
theorem encode_primeIssue (w : Word) : encode (.primeIssue w) = w ++ 0x00000013#32 :=
  packRecord_eq_append 0x13#8 false false 0#8 w

end Sys2Proof

namespace Sys2Proof.Machine

variable {s : State}

/-- R12, R201: a terminal transition with the request register free takes its effect: cause entry, the close request,
its record. -/
theorem schStep_endAndClose_closed {c : Prop} [Decidable c] {ca : Cause} {m : Msg} {st : St} {i : Instr}
    (hs : s.sch.sound = true) (hc : c) (hreq : s.sch.req.valid = false) :
    schStep s c (endAndClose ca m st i s) =
      .next { s with
              sch := s.sch.closing ca m st
              console := s.console ++ [m]
              trace := s.trace ++ [encode i] } := by
  rw [endAndClose, State.endSession_eq]
  exact schStep_srcRequest_posted hs hc hreq rfl nofun

/-- R12, R131, R100: a scheduler step that issues the words of a read of 4 to `P_BUFFER_SIZE` bytes triggers the idle
channel on a buffer the channel does not own. -/
theorem schStep_issue_triggered {c : Prop} [Decidable c] {u : State} {i : Buf} {b : Word} {g : State → State}
    (hs : s.sch.sound = true) (hc : c) (hword : 4 ≤ b.toNat) (hfits : b.toNat ≤ u.params.bufferSize.toNat)
    (hbusy : u.dma.busy = false) (hown : u.sch.own i = false) :
    schStep s c ((issue i (wordCount b) u).map g) = .next (g (u.trigger i (wordCount b))) := by
  have hw : (wordCount b).toNat = b.toNat / 4 := toNat_wordCount b
  have hne : wordCount b ≠ 0#32 := fun h => by
    rw [h, BitVec.toNat_zero] at hw
    omega
  rw [issue_of_fits hbusy hne (hw ▸ Nat.div_le_div_right hfits) hown, map_ok, schStep_ok hs hc]

/-- Settles O24: the response is consumed before buffer A is requested again, and the channel does not own it. -/
theorem primeShortReadsBufferAAgain : Obligations.PrimeShortReadsBufferAAgain := by
  intro s x hs hph hrsp hop herr hlo hhi hreq hfree
  have hc : canPrimeShort s := ⟨⟨hph, hrsp, hop, herr⟩, hlo, hhi⟩
  rw [← encode_primeShort]
  exact schStep_srcRequest_posted hs hc hreq rfl fun _ => hfree

/-- Settles O25: a read of at least one word and at most a buffer passes the four checks of `Issue`. -/
theorem primeIssueStartsTheFirstTransfer : Obligations.PrimeIssueStartsTheFirstTransfer := by
  intro s x hs hph hrsp hop herr hword hfits hbusy hfree
  have hc : canPrimeIssue s := ⟨⟨hph, hrsp, hop, herr⟩, hword⟩
  refine ⟨wordCount s.sch.rsp.bytes, toNat_wordCount _, ?_⟩
  have hexec : exec (.primeIssue x) s = _ := schStep_issue_triggered hs hc hword hfits hbusy hfree
  rw [hexec, State.trigger, Dma.load_descriptor, ← encode_primeIssue]
  rfl

/-- Settles O23: both are the terminal transition through `endAndClose`, each under its own guard. -/
theorem primeErrAndPrimeEmptyHaltAndRequestClose : Obligations.PrimeErrAndPrimeEmptyHaltAndRequestClose := by
  intro s hs hph hrsp hop hreq
  refine ⟨fun herr => ?_, fun herr hempty => ?_⟩
  · have hc : canPrimeErr s := ⟨hph, hrsp, hop, herr⟩
    exact schStep_endAndClose_closed hs hc hreq
  · have hc : canPrimeEmpty s := ⟨⟨hph, hrsp, hop, herr⟩, hempty⟩
    exact schStep_endAndClose_closed hs hc hreq

end Sys2Proof.Machine
end

section
/-! The step of streaming (44_step.md R160 to R165): the request for the next block, the four answers to it, and the
re-trigger. -/

namespace Sys2Proof

variable (f : Buf) (x : Word)

/-- R92, R94: the record of an action with a buffer and no error; `BUF` is the bit above the action code. -/
theorem packRecord_buf_eq_append (act : BitVec 8) :
    packRecord act f.toBit false 0#8 x =
      x ++ (match f with | .a => 0x000000#24 ++ act | .b => 0x000001#24 ++ act : Word) := by
  cases f with
  | a => exact packRecord_eq_append act false false 0#8 x
  | b => exact packRecord_eq_append act true false 0#8 x

/-- R92, R160: the record of a fill request. -/
theorem encode_fillReq :
    encode (.fillReq f x) = x ++ (match f with | .a => 0x00000020#32 | .b => 0x00000120#32 : Word) :=
  packRecord_buf_eq_append f x 0x20#8

/-- R92, R163: the record of a short fill. -/
theorem encode_fillShort :
    encode (.fillShort f x) = x ++ (match f with | .a => 0x00000023#32 | .b => 0x00000123#32 : Word) :=
  packRecord_buf_eq_append f x 0x23#8

/-- R92, R164: the record of a fill held. -/
theorem encode_fillOk :
    encode (.fillOk f x) = x ++ (match f with | .a => 0x00000024#32 | .b => 0x00000124#32 : Word) :=
  packRecord_buf_eq_append f x 0x24#8

/-- R92, R165: the record of a re-trigger. -/
theorem encode_waitIssue :
    encode (.waitIssue f x) = x ++ (match f with | .a => 0x00000025#32 | .b => 0x00000125#32 : Word) :=
  packRecord_buf_eq_append f x 0x25#8

/-- R92, R161: the record of a failed fill, with bit `ERR` set. -/
theorem encode_fillErr :
    encode (.fillErr f) = match f with | .a => 0x0000000000000221#64 | .b => 0x0000000000000321#64 := by
  cases f <;> rfl

/-- R92, R162: the record of the end of the source. -/
theorem encode_fillEos :
    encode (.fillEos f) = match f with | .a => 0x0000000000000022#64 | .b => 0x0000000000000122#64 := by
  cases f <;> rfl

end Sys2Proof

namespace Sys2Proof.Machine

variable {s : State}

/-- R9: of two buffers that differ, one is the other of the other. -/
theorem eq_otherBuf_of_ne {f i : Buf} : f ≠ i → f = otherBuf i := by cases f <;> cases i <;> decide

/-- R165: the active buffer released and the fillable one issued, as one update. -/
theorem State.trigger_after_release (s : State) (w : Word) :
    ({ s with sch := s.sch.setOwn s.sch.active false } : State).trigger s.fillable w =
      { s with
        sch :=
          { s.sch with
            ownA := match s.fillable with | .a => true | .b => false
            ownB := match s.fillable with | .a => false | .b => true
            xferCount := s.sch.xferCount + 1#32, lastWords := w }
        dma :=
          { readAddr := bufBase s.params.toParams s.fillable, writeAddr := s.params.txfAddr, count := w
            buf := s.fillable, incrRead := true, incrWrite := false, dataSize := 2#2, busy := true, done := false } } := by
  rw [State.trigger, Dma.load_descriptor, State.fillable]
  cases s.sch.active <;> rfl

/-- R12, R131: a scheduler step that issues words that fit a buffer triggers the idle channel on a buffer the channel does
not own. -/
theorem schStep_issue_of_fits {c : Prop} [Decidable c] {u : State} {i : Buf} {w : Word} {g : State → State}
    (hs : s.sch.sound = true) (hc : c) (hbusy : u.dma.busy = false) (hw : w ≠ 0#32)
    (hfits : w.toNat ≤ u.params.bufferSize.toNat / 4) (hown : u.sch.own i = false) :
    schStep s c ((issue i w u).map g) = .next (g (u.trigger i w)) := by
  rw [issue_of_fits hbusy hw hfits hown, map_ok, schStep_ok hs hc]

/-- Settles O26: nothing is outstanding, so the ownership of the fillable buffer decides between the request and the
fault. -/
theorem fillReqRequestsTheFillableBuffer : Obligations.FillReqRequestsTheFillableBuffer := by
  intro s x y f hs hph hst hreq hrsp hf
  obtain rfl : f = s.fillable := eq_otherBuf_of_ne hf
  have hc : canFillReq s := ⟨hph, hst, hreq, hrsp⟩
  refine ⟨fun hfree => ?_, fun howned => schStep_srcRequest_owned hs hc hreq hrsp howned⟩
  have hexec : exec (.fillReq x y) s = _ := schStep_srcRequest_posted hs hc hreq hrsp fun _ => hfree
  rw [hexec, State.emit, encode_fillReq]
  rfl

/-- Settles O27: both are the terminal transition through `endAndClose`, each under its own guard. -/
theorem fillErrAndFillEosEndTheSessionAndRequestClose :
    Obligations.FillErrAndFillEosEndTheSessionAndRequestClose := by
  intro s x f hs hph hrsp hop hreq hf
  obtain rfl : f = s.fillable := eq_otherBuf_of_ne hf
  refine ⟨fun herr => ?_, fun herr hempty => ?_⟩
  · have hc : canFillErr s := ⟨hph, hrsp, hop, herr⟩
    have hexec : exec (.fillErr x) s = _ := schStep_endAndClose_closed hs hc hreq
    rw [hexec, encode_fillErr]
    rfl
  · have hc : canFillEos s := ⟨⟨hph, hrsp, hop, herr⟩, hempty⟩
    have hexec : exec (.fillEos x) s = _ := schStep_endAndClose_closed hs hc hreq
    rw [hexec, encode_fillEos]
    rfl

/-- Settles O28: the response is consumed before the fillable buffer is requested again. -/
theorem fillShortReadsTheSameBufferAgain : Obligations.FillShortReadsTheSameBufferAgain := by
  intro s x y f hs hph hrsp hop herr hlo hhi hreq hf hfree
  obtain rfl : f = s.fillable := eq_otherBuf_of_ne hf
  have hc : canFillShort s := ⟨⟨hph, hrsp, hop, herr⟩, hlo, hhi⟩
  have hexec : exec (.fillShort x y) s = _ := schStep_srcRequest_posted hs hc hreq rfl fun _ => hfree
  rw [hexec, State.emit, encode_fillShort]
  rfl

/-- Settles O29: the words held are those of the byte count (R100), and nothing can fault. -/
theorem fillOkHoldsTheFilledBuffer : Obligations.FillOkHoldsTheFilledBuffer := by
  intro s x y f hs hph hrsp hop herr hword hf
  obtain rfl : f = s.fillable := eq_otherBuf_of_ne hf
  have hc : canFillOk s := ⟨⟨hph, hrsp, hop, herr⟩, hword⟩
  refine ⟨wordCount s.sch.rsp.bytes, toNat_wordCount _, ?_⟩
  have hexec : exec (.fillOk x y) s = _ := schStep_ok hs hc
  rw [hexec, State.emit, encode_fillOk]
  rfl

/-- Settles O30: with the active buffer released the four checks of `Issue` pass for the other one. -/
theorem waitIssueReleasesIssuesAndFlips : Obligations.WaitIssueReleasesIssuesAndFlips := by
  intro s x y f hs hph hdone hbusy hpos hfits hf hfree
  obtain rfl : f = s.fillable := eq_otherBuf_of_ne hf
  have hc : canWaitIssue s := ⟨hph, hdone, hbusy⟩
  have hreleased : (s.sch.setOwn s.sch.active false).own s.fillable = false :=
    (Sch.own_setOwn_other s.sch s.sch.active false).trans hfree
  have hexec : exec (.waitIssue x y) s = _ := schStep_issue_of_fits hs hc hbusy hpos hfits hreleased
  rw [hexec, State.trigger_after_release, State.emit, encode_waitIssue]
  rfl

end Sys2Proof.Machine
end

section
/-! The scheduler's turn (44_step.md R167): the phase and the answer it waits for name one action. -/

namespace Sys2Proof.Machine

variable {s t : State}

/-- R150 to R153, R161 to R164: which of four actions takes the answer to a read: `err` a failed one, `empty` one of 0 bytes,
`short` one of 1 to 3 bytes, `words` one of more. -/
def Rsp.takenBy (r : Rsp) (err empty short words : BitVec 8) : BitVec 8 :=
  if r.err = true then err
  else if r.bytes = 0#32 then empty
  else if r.bytes ≤ 3#32 then short
  else words

/-- R142 to R180: the code of the one scheduler action that can be enabled in a phase; none in `STOP` (R181). -/
def Sch.dueCode (c : Sch) : Option (BitVec 8) :=
  match c.ph with
  | .ready => some 0x01#8
  | .opn => some (if c.rsp.err = true then 0x03#8 else 0x02#8)
  | .prime => some (c.rsp.takenBy 0x10#8 0x11#8 0x12#8 0x13#8)
  | .issued => some 0x20#8
  | .fill => some (c.rsp.takenBy 0x21#8 0x22#8 0x23#8 0x24#8)
  | .wait => some 0x25#8
  | .close => some 0x30#8
  | .stop => none

section
variable {r : Rsp} (x y z w : BitVec 8)

theorem Rsp.takenBy_err (he : r.err = true) : r.takenBy x y z w = x := if_pos he

theorem Rsp.takenBy_empty (he : r.err = false) (hb : r.bytes = 0#32) : r.takenBy x y z w = y := by
  simp [Rsp.takenBy, he, hb]

theorem Rsp.takenBy_short (he : r.err = false) (hlo : 1#32 ≤ r.bytes) (hhi : r.bytes ≤ 3#32) :
    r.takenBy x y z w = z := by
  have hne : r.bytes ≠ 0#32 := fun h => by simp [h] at hlo
  simp [Rsp.takenBy, he, hne, hhi]

theorem Rsp.takenBy_words (he : r.err = false) (hb : 4#32 ≤ r.bytes) : r.takenBy x y z w = w := by
  have hne : r.bytes ≠ 0#32 := fun h => by simp [h] at hb
  have hlong : ¬r.bytes ≤ 3#32 := by bv_omega
  simp [Rsp.takenBy, he, hne, hlong]

end

/-- R12: what `enabled` says of a scheduler action. -/
theorem sound_and_guard {c : Prop} [Decidable c] (he : (s.sch.sound && decide c) = true) : s.sch.sound = true ∧ c := by
  simpa using he

/-- R167: an enabled scheduler action is the one that is due. -/
theorem dueCode_of_enabled {i : Instr} (hi : isSchedulerAction i = true) (he : enabled i s = true) :
    s.sch.sound = true ∧ s.sch.dueCode = some (actCode i) := by
  cases i with
  | startOpen =>
    obtain ⟨hs, _, hp, _⟩ := sound_and_guard he
    exact ⟨hs, by simp [Sch.dueCode, hp, actCode]⟩
  | openOk _ | openFail =>
    obtain ⟨hs, hp, _, _, herr⟩ := sound_and_guard he
    exact ⟨hs, by simp [Sch.dueCode, hp, herr, actCode]⟩
  | primeErr | fillErr _ =>
    obtain ⟨hs, hp, _, _, herr⟩ := sound_and_guard he
    exact ⟨hs, by simp [Sch.dueCode, hp, Rsp.takenBy_err, herr, actCode]⟩
  | primeEmpty | fillEos _ =>
    obtain ⟨hs, ⟨hp, _, _, herr⟩, hb⟩ := sound_and_guard he
    exact ⟨hs, by simp [Sch.dueCode, hp, Rsp.takenBy_empty, herr, hb, actCode]⟩
  | primeShort _ | fillShort _ _ =>
    obtain ⟨hs, ⟨hp, _, _, herr⟩, hlo, hhi⟩ := sound_and_guard he
    exact ⟨hs, by simp only [Sch.dueCode, hp, Rsp.takenBy_short _ _ _ _ herr hlo hhi, actCode]⟩
  | primeIssue _ | fillOk _ _ =>
    obtain ⟨hs, ⟨hp, _, _, herr⟩, hb⟩ := sound_and_guard he
    exact ⟨hs, by simp only [Sch.dueCode, hp, Rsp.takenBy_words _ _ _ _ herr hb, actCode]⟩
  | fillReq _ _ | waitIssue _ _ | closeDone =>
    obtain ⟨hs, hp, _⟩ := sound_and_guard he
    exact ⟨hs, by simp [Sch.dueCode, hp, actCode]⟩
  | hostWrite _ _ | hostRead _ _ | dmaMove _ _ | soeEmit _ | srcOpenRsp _ _ | srcReadRsp _ _ _ | srcCloseRsp | reset =>
    exact absurd hi nofun

/-- Settles O45: both are the action that is due. -/
theorem atMostOneSchedulerActionIsEnabled : Obligations.AtMostOneSchedulerActionIsEnabled := by
  intro s i j hi hj hei hej
  obtain ⟨_, hdi⟩ := dueCode_of_enabled hi hei
  obtain ⟨_, hdj⟩ := dueCode_of_enabled hj hej
  exact Option.some.inj (hdi.symm.trans hdj)

end Sys2Proof.Machine
end

section
/-! Terminal states (44_step.md R173, 45_termination.md R182): in `DONE` and `HALTED` the scheduler can only close, and what
the session recorded stays. -/

namespace Sys2Proof.Machine

variable {s t : State}

theorem pairAllowed_terminal {st : St} {ph : Ph} (hst : st = .done ∨ st = .halted) :
    pairAllowed st ph = true → ph = .close ∨ ph = .stop := by
  rcases hst with rfl | rfl <;> cases ph <;> decide

/-- R22: a sound scheduler whose session has ended is in `CLOSE` or `STOP`. -/
theorem Sch.ph_of_terminal {c : Sch} (hs : c.sound = true) (hst : c.st = .done ∨ c.st = .halted) :
    c.ph = .close ∨ c.ph = .stop := by
  obtain ⟨hpair, _, _⟩ := c.sound_iff.1 hs
  exact pairAllowed_terminal hst hpair

/-- R182: once the session has ended, the only scheduler action that can be enabled is `CLOSE_DONE`. -/
theorem actCode_of_terminal {i : Instr} (hst : s.sch.st = .done ∨ s.sch.st = .halted)
    (hi : isSchedulerAction i = true) (he : enabled i s = true) : actCode i = 0x30#8 := by
  obtain ⟨hs, hdue⟩ := dueCode_of_enabled hi he
  rcases Sch.ph_of_terminal hs hst with hp | hp <;> simp only [Sch.dueCode, hp] at hdue
  · exact (Option.some.inj hdue).symm
  · cases hdue

/-- R12, R22: a scheduler step in an unsound state is the fault `BAD_STATE`. -/
theorem exec_badState {i : Instr} (hi : isSchedulerAction i = true) (hs : s.sch.sound = false) :
    exec i s = .next (s.raise .badState) := by
  cases i with
  | startOpen | openOk _ | openFail | primeErr | primeEmpty | primeShort _ | primeIssue _ | fillReq _ _ | fillErr _
  | fillEos _ | fillShort _ _ | fillOk _ _ | waitIssue _ _ | closeDone => exact schStep_badState hs _
  | hostWrite _ _ | hostRead _ _ | dmaMove _ _ | soeEmit _ | srcOpenRsp _ _ | srcReadRsp _ _ _ | srcCloseRsp | reset =>
    exact absurd hi nofun

/-- R12, R22: an action that is not enabled holds or raises `BAD_STATE`. -/
theorem exec_of_not_enabled {i : Instr} (he : enabled i s = false) (h : exec i s = .next t) :
    t = s ∨ t = s.raise .badState := by
  by_cases hbad : isSchedulerAction i = true ∧ s.sch.sound = false
  · obtain ⟨hi, hs⟩ := hbad
    rw [exec_badState hi hs] at h
    cases h
    exact .inr rfl
  · have hhold : exec i s = .next s := exec_hold_of_not_enabled he fun hi => by simpa [hi] using hbad
    cases hhold.symm.trans h
    exact .inl rfl

/-- R173, R182: from `s` to `t` nothing changes that a session records: of the scheduler only the phase, a pending start, the
validity of the handle, the request and the response, and the console not at all. -/
def SessionKept (s t : State) : Prop :=
  t.sch =
      { s.sch with
        ph := t.sch.ph, startPend := t.sch.startPend, hvalid := t.sch.hvalid, req := t.sch.req, rsp := t.sch.rsp } ∧
    t.console = s.console

/-- R140: a host write sets at most the pending start. -/
theorem State.hostStore_sessionKept (s : State) (ofs : BitVec 8) (v : Word) : SessionKept s (s.hostStore ofs v) := by
  rw [State.hostStore_eq]
  exact ⟨rfl, rfl⟩

/-- R182: `CLOSE_DONE` and the actions of the other agents keep what the session recorded. -/
theorem Effect.sessionKept {i : Instr} (h : Effect i s t) (hreset : i ≠ .reset)
    (hi : isSchedulerAction i = true → actCode i = 0x30#8) : SessionKept s t := by
  cases i with
  | startOpen | openOk _ | openFail | primeErr | primeEmpty | primeShort _ | primeIssue _ | fillReq _ _ | fillErr _
  | fillEos _ | fillShort _ _ | fillOk _ _ | waitIssue _ _ => exact absurd (hi rfl) (by simp [actCode])
  | closeDone | srcOpenRsp _ _ | srcCloseRsp =>
    obtain ⟨_, rfl⟩ := h
    exact ⟨rfl, rfl⟩
  | hostWrite ofs v =>
    obtain ⟨_, _, rfl⟩ := h
    exact s.hostStore_sessionKept ofs v
  | hostRead _ _ =>
    obtain ⟨_, _, rfl⟩ := h
    exact ⟨rfl, rfl⟩
  | dmaMove _ _ =>
    obtain ⟨_, w, _, rfl⟩ := h
    exact ⟨rfl, rfl⟩
  | soeEmit _ =>
    obtain ⟨w, q, _, rfl⟩ := h
    exact ⟨rfl, rfl⟩
  | srcReadRsp _ _ _ =>
    obtain ⟨_, _, _, _, m, _, rfl⟩ := h
    exact ⟨rfl, rfl⟩
  | reset => exact absurd rfl hreset

theorem exec_sessionKept {i : Instr} (hreset : i ≠ .reset) (hst : s.sch.st = .done ∨ s.sch.st = .halted)
    (h : exec i s = .next t) : SessionKept s t := by
  cases he : enabled i s with
  | false => rcases exec_of_not_enabled he h with rfl | rfl <;> exact ⟨rfl, rfl⟩
  | true =>
    rcases exec_cases i h with rfl | rfl | ⟨f, rfl⟩ | heff
    · exact ⟨rfl, rfl⟩
    · exact ⟨rfl, rfl⟩
    · exact ⟨rfl, rfl⟩
    · exact heff.sessionKept hreset fun hi => actCode_of_terminal hst hi he

/-- Settles O47: the registers named are among those that are kept. -/
theorem terminalStatesAbsorb : Obligations.TerminalStatesAbsorb := by
  intro i s t hreset hst h
  obtain ⟨hsch, hconsole⟩ := exec_sessionKept hreset hst h
  rw [hsch]
  exact ⟨rfl, rfl, rfl, rfl, rfl, rfl, rfl, rfl, rfl, rfl, hconsole⟩

end Sys2Proof.Machine
end

section
/-! The word counts of the transfers (44_step.md R172, 30_encoding.md R100): which actions count a transfer or hold words,
and where the number of words comes from. -/

namespace Sys2Proof.Machine

variable {s t : State}

/-- What the action `i` does to `XFER_COUNT` and `PEND_WORDS` from `s` to `t`: it leaves both, issues the words of the
response (R153), holds them (R164), or issues the words held (R165). -/
def WordCountStep (i : Instr) (s t : State) : Prop :=
  (t.sch.xferCount = s.sch.xferCount ∧ t.sch.pendWords = s.sch.pendWords) ∨
    ((∃ w, i = .primeIssue w) ∧ 4#32 ≤ s.sch.rsp.bytes ∧ t.sch.lastWords = wordCount s.sch.rsp.bytes ∧
      t.dma.count = t.sch.lastWords ∧ t.sch.pendWords = s.sch.pendWords) ∨
    ((∃ f w, i = .fillOk f w) ∧ 4#32 ≤ s.sch.rsp.bytes ∧ t.sch.pendWords = wordCount s.sch.rsp.bytes ∧
      t.sch.xferCount = s.sch.xferCount) ∨
    ((∃ f w, i = .waitIssue f w) ∧ t.sch.lastWords = s.sch.pendWords ∧ t.dma.count = s.sch.pendWords ∧
      t.sch.pendWords = 0#32)

theorem Effect.wordCountStep {i : Instr} (hreset : i ≠ .reset) (h : Effect i s t) : WordCountStep i s t := by
  cases i with
  | startOpen | openFail | closeDone | srcOpenRsp _ _ | srcCloseRsp =>
    obtain ⟨_, rfl⟩ := h
    exact .inl ⟨rfl, rfl⟩
  | primeErr | primeEmpty | fillReq _ _ | fillErr _ | fillEos _ | hostRead _ _ =>
    obtain ⟨_, _, rfl⟩ := h
    exact .inl ⟨rfl, rfl⟩
  | openOk _ | primeShort _ | fillShort _ _ =>
    obtain ⟨_, _, _, rfl⟩ := h
    exact .inl ⟨rfl, rfl⟩
  | hostWrite ofs v =>
    obtain ⟨_, _, rfl⟩ := h
    rw [State.hostStore_eq]
    exact .inl ⟨rfl, rfl⟩
  | dmaMove _ _ =>
    obtain ⟨_, w, _, rfl⟩ := h
    exact .inl ⟨rfl, rfl⟩
  | soeEmit _ =>
    obtain ⟨w, q, _, rfl⟩ := h
    exact .inl ⟨rfl, rfl⟩
  | srcReadRsp _ _ _ =>
    obtain ⟨_, _, _, _, m, _, rfl⟩ := h
    exact .inl ⟨rfl, rfl⟩
  | primeIssue w =>
    obtain ⟨⟨_, hfour⟩, _, _, _, _, rfl⟩ := h
    exact .inr (.inl ⟨⟨w, rfl⟩, hfour, rfl, rfl, rfl⟩)
  | fillOk f w =>
    obtain ⟨⟨_, hfour⟩, rfl⟩ := h
    exact .inr (.inr (.inl ⟨⟨f, w, rfl⟩, hfour, rfl, rfl⟩))
  | waitIssue f w =>
    obtain ⟨_, _, _, _, rfl⟩ := h
    exact .inr (.inr (.inr ⟨⟨f, w, rfl⟩, rfl, rfl, rfl⟩))
  | reset => exact absurd rfl hreset

/-- A hold, a refusal and a fault leave both counts. -/
theorem exec_wordCountStep {i : Instr} (hreset : i ≠ .reset) (h : exec i s = .next t) : WordCountStep i s t := by
  rcases exec_cases i h with rfl | rfl | ⟨f, rfl⟩ | h
  · exact .inl ⟨rfl, rfl⟩
  · exact .inl ⟨rfl, rfl⟩
  · exact .inl ⟨rfl, rfl⟩
  · exact h.wordCountStep hreset

/-- Settles O50: the four kinds of action, with the words of a byte count as `floor(b/4)` (R100). -/
theorem wordCountsAreThoseOfTheReads : Obligations.WordCountsAreThoseOfTheReads := by
  intro i s t hreset h
  have hfloor := toNat_wordCount s.sch.rsp.bytes
  rcases exec_wordCountStep hreset h with ⟨hx, hp⟩ | ⟨hi, hfour, hlast, hcount, hp⟩ | ⟨hi, hfour, hpend, hx⟩ |
    ⟨hi, hlast, hcount, hpend⟩
  · exact ⟨fun hne => absurd hx hne, fun hne => absurd hp hne⟩
  · exact ⟨fun _ => .inl ⟨hi, hfour, hlast ▸ hfloor, hcount⟩, fun hne => absurd hp hne⟩
  · exact ⟨fun hne => absurd hx hne, fun _ => .inl ⟨hi, hfour, hpend ▸ hfloor⟩⟩
  · exact ⟨fun _ => .inr ⟨hi, hlast, hcount⟩, fun _ => .inr ⟨hi, hpend⟩⟩

end Sys2Proof.Machine
end

section
/-! The buffer in flight (44_step.md R170): the source is never asked to fill the buffer the channel is moving, and only its
answer to a read writes a buffer. -/

namespace Sys2Proof.Machine

variable {s t : State}

/-! ### The request never targets it -/

/-- R171: a busy channel moves a transfer that was issued. -/
theorem State.Inv.issuedOnce_of_busy (hs : s.Inv) (hb : s.dma.busy = true) : s.issuedOnce := by
  have hnever : ¬s.neverIssued := fun ⟨_, _, _, _, hidle, _⟩ => Bool.noConfusion (hidle.symm.trans hb)
  obtain ⟨hidle, hlive, hhalted⟩ := hs.ownership
  have hpair := hs.pair
  cases hst : s.sch.st with
  | idle => exact absurd (hidle hst) hnever
  | primed | streaming | done => exact hlive (by simp [hst])
  | halted => exact (hhalted hst).resolve_left hnever
  | reserved5 | reserved6 | reserved7 => simp [hst, pairAllowed] at hpair

/-- R171: the channel owns the buffer it is moving. -/
theorem State.Inv.own_of_busy (hs : s.Inv) (hb : s.dma.busy = true) : s.sch.own s.dma.buf = true := by
  obtain ⟨⟨hown, _⟩, hbuf, _⟩ := hs.issuedOnce_of_busy hb
  rwa [hbuf]

/-- R78: where a request is outstanding, no response is. -/
theorem State.Inv.rsp_of_requested (hs : s.Inv) (hq : s.sch.req.valid = true) : s.sch.rsp.valid = false := by
  obtain ⟨hquiet, hawait⟩ := s.sourcePhase_iff.1 hs.source
  cases hw : s.awaited with
  | none => exact (hquiet hw).2
  | some e =>
    rcases hawait e.1 e.2 hw with ⟨_, hv, _⟩ | ⟨hq', _⟩
    · exact hv
    · exact absurd hq (by simp [hq'])

/-- R170, R171: the buffer of an outstanding read is the scheduler's, the one in flight the channel's. -/
theorem State.Inv.req_buf_ne_of_busy (hs : s.Inv) (hb : s.dma.busy = true) (hq : s.sch.req.valid = true)
    (hop : s.sch.req.op = .read) : s.sch.req.buf ≠ s.dma.buf := by
  obtain ⟨f, hw, hbuf, _⟩ := hs.asked ⟨hq, hop, hs.rsp_of_requested hq⟩
  intro heq
  have hfree := hs.own_of_read hw
  rw [← hbuf, heq, hs.own_of_busy hb] at hfree
  cases hfree

/-! ### Only the answer to a read writes a buffer -/

/-- R42, R193: an effect leaves the memory, or is that of a reset or of the answer to a read. -/
theorem Effect.bufmem_eq {i : Instr} (h : Effect i s t) (hreset : i ≠ .reset)
    (hanswer : ∀ f err b, i ≠ .srcReadRsp f err b) : t.bufmem = s.bufmem := by
  cases i with
  | startOpen | openFail | fillOk _ _ | closeDone | srcOpenRsp _ _ | srcCloseRsp =>
    obtain ⟨_, rfl⟩ := h
    rfl
  | primeErr | primeEmpty | fillReq _ _ | fillErr _ | fillEos _ | hostRead _ _ =>
    obtain ⟨_, _, rfl⟩ := h
    rfl
  | openOk _ | primeShort _ | fillShort _ _ =>
    obtain ⟨_, _, _, rfl⟩ := h
    rfl
  | waitIssue _ _ =>
    obtain ⟨_, _, _, _, rfl⟩ := h
    rfl
  | primeIssue _ =>
    obtain ⟨_, _, _, _, _, rfl⟩ := h
    rfl
  | hostWrite ofs v =>
    obtain ⟨_, _, rfl⟩ := h
    rw [State.hostStore_eq]
    rfl
  | dmaMove _ _ =>
    obtain ⟨_, w, _, rfl⟩ := h
    rfl
  | soeEmit _ =>
    obtain ⟨w, q, _, rfl⟩ := h
    rfl
  | srcReadRsp f err b => exact absurd rfl (hanswer f err b)
  | reset => exact absurd rfl hreset

/-- R7: the regions of two different buffers have no common byte. -/
theorem buffers_disjoint (p : ValidParams) {i j : Buf} (hij : i ≠ j) :
    (bufBase p.toParams i).toNat + p.bufferSize.toNat ≤ (bufBase p.toParams j).toNat ∨
      (bufBase p.toParams j).toNat + p.bufferSize.toNat ≤ (bufBase p.toParams i).toNat := by
  have hp := p.ok
  simp only [Params.valid, rangesDisjoint, Bool.and_eq_true, Bool.or_eq_true, decide_eq_true_eq] at hp
  obtain ⟨⟨⟨⟨⟨_, hAB⟩, _⟩, _⟩, _⟩, _⟩ := hp
  cases eq_otherBuf_of_ne hij
  cases j with
  | a => exact hAB.symm
  | b => exact hAB

/-- R193: the answer to a read leaves every byte of the buffer it was not asked for. -/
theorem State.Inv.read_of_srcReadRsp (hs : s.Inv) {x : Buf} {err : Bool} {b : Word}
    (h : Effect (.srcReadRsp x err b) s t) {j : Buf} (hj : s.sch.req.buf ≠ j) {k : Nat}
    (hk : k < s.params.bufferSize.toNat) :
    t.bufmem.read ((bufBase s.params.toParams j).toNat + k) =
      s.bufmem.read ((bufBase s.params.toParams j).toNat + k) := by
  obtain ⟨hc, hlen, _, _, m, hm, rfl⟩ := h
  obtain ⟨_, _, _, hsize⟩ := hs.asked hc
  rw [BitVec.lt_def, hsize rfl, not_lt] at hlen
  have hdis := buffers_disjoint s.params hj
  refine memWriteAll_read_outside hm _ ?_
  rw [Env.length_bytes]
  omega

/-- Settles O56: a request never targets the buffer in flight, so that neither does the answer to it. -/
theorem theInFlightBufferIsNeverWritten : Obligations.TheInFlightBufferIsNeverWritten := by
  intro i s t hs hreset hb h
  refine ⟨fun k hk => ?_, hs.req_buf_ne_of_busy hb⟩
  rcases exec_cases i h with rfl | rfl | ⟨f, rfl⟩ | heff
  · rfl
  · rfl
  · rfl
  · by_cases hanswer : ∃ f err b, i = .srcReadRsp f err b
    · obtain ⟨f, err, b, rfl⟩ := hanswer
      obtain ⟨hq, hop, _⟩ : canRespond s .read := heff.1
      exact hs.read_of_srcReadRsp heff (hs.req_buf_ne_of_busy hb hq hop) hk
    · rw [heff.bufmem_eq hreset (by simpa using hanswer)]

end Sys2Proof.Machine
end

section
/-! Termination (45_termination.md R180 to R183): release of the handle, the phase `STOP`, and the final states. -/

namespace Sys2Proof.Machine

variable {s t : State}

/-- Settles O31: the acknowledgement meets the guard, and nothing can fault. -/
theorem closeDoneReleasesTheHandle : Obligations.CloseDoneReleasesTheHandle := by
  intro s hs hp hv hop
  have hc : canCloseDone s := ⟨hp, hv, hop⟩
  exact schStep_ok hs hc

/-! ### The phase `STOP` -/

/-- R181: in `STOP` no scheduler action is due. -/
theorem not_enabled_of_stop {i : Instr} (hp : s.sch.ph = .stop) (hi : isSchedulerAction i = true) :
    enabled i s = false := by
  rw [← Bool.not_eq_true]
  intro he
  obtain ⟨_, hdue⟩ := dueCode_of_enabled hi he
  simp [Sch.dueCode, hp] at hdue

/-- R3: of the scheduler's registers the other agents change at most the pending start, the request and the response. -/
theorem Effect.sch_eq_of_other_agent {i : Instr} (h : Effect i s t) (hreset : i ≠ .reset)
    (hi : isSchedulerAction i = false) :
    t.sch = { s.sch with startPend := t.sch.startPend, req := t.sch.req, rsp := t.sch.rsp } := by
  cases i with
  | startOpen | openOk _ | openFail | primeErr | primeEmpty | primeShort _ | primeIssue _ | fillReq _ _ | fillErr _
  | fillEos _ | fillShort _ _ | fillOk _ _ | waitIssue _ _ | closeDone => exact absurd hi nofun
  | hostWrite ofs v =>
    obtain ⟨_, _, rfl⟩ := h
    rw [State.hostStore_eq]
    rfl
  | hostRead _ _ =>
    obtain ⟨_, _, rfl⟩ := h
    rfl
  | dmaMove _ _ =>
    obtain ⟨_, w, _, rfl⟩ := h
    rfl
  | soeEmit _ =>
    obtain ⟨w, q, _, rfl⟩ := h
    rfl
  | srcOpenRsp _ _ | srcCloseRsp =>
    obtain ⟨_, rfl⟩ := h
    rfl
  | srcReadRsp _ _ _ =>
    obtain ⟨_, _, _, _, m, _, rfl⟩ := h
    rfl
  | reset => exact absurd rfl hreset

/-- R181, R219: `STOP` is left by `RESET` only. -/
theorem exec_control_of_stop {i : Instr} (hp : s.sch.ph = .stop) (hreset : i ≠ .reset) (h : exec i s = .next t) :
    t.sch.st = s.sch.st ∧ t.sch.ph = s.sch.ph := by
  cases hi : isSchedulerAction i with
  | true => rcases exec_of_not_enabled (not_enabled_of_stop hp hi) h with rfl | rfl <;> exact ⟨rfl, rfl⟩
  | false =>
    rcases exec_cases i h with rfl | rfl | ⟨f, rfl⟩ | heff
    · exact ⟨rfl, rfl⟩
    · exact ⟨rfl, rfl⟩
    · exact ⟨rfl, rfl⟩
    · rw [heff.sch_eq_of_other_agent hreset hi]
      exact ⟨rfl, rfl⟩

/-- R140, R181: in `STOP` a host write is traced and ignored. -/
theorem exec_hostWrite_of_stop {ofs : BitVec 8} (hp : s.sch.ph = .stop) (hin : offsetInside ofs = true)
    (hal : offsetAligned ofs = true) (v : Word) :
    exec (.hostWrite ofs v) s = .next (s.emit (.hostWrite ofs v)) := by
  have hexec : exec (.hostWrite ofs v) s = .next ((s.hostStore ofs v).emit (.hostWrite ofs v)) :=
    hostAccessed_done hin hal _
  rcases s.hostStore_cases ofs v with hkept | ⟨_, hready, _⟩
  · rw [hexec, hkept]
  · rw [hp] at hready
    cases hready

/-- Settles O46: nothing is due in `STOP`, the other agents leave the control state, and a start is ignored. -/
theorem stopHasNoSchedulerAction : Obligations.StopHasNoSchedulerAction := by
  intro s i hp
  refine ⟨not_enabled_of_stop hp, fun hreset t h => ?_, fun v t h => ?_⟩
  · obtain ⟨hst, hph⟩ := exec_control_of_stop hp hreset h
    exact ⟨hst, hph.trans hp⟩
  · cases (exec_hostWrite_of_stop hp rfl rfl v).symm.trans h
    rfl

/-! ### The final states -/

/-- R183: in a final state every agent but the host lacks what its guards ask for. -/
theorem State.quiescent_of_final (hs : s.final) : s.quiescent := by
  obtain ⟨hp, hreq, _, hbusy, hq, _, _⟩ := hs
  intro i hi
  cases i with
  | startOpen | openOk _ | openFail | primeErr | primeEmpty | primeShort _ | primeIssue _ | fillReq _ _ | fillErr _
  | fillEos _ | fillShort _ _ | fillOk _ _ | waitIssue _ _ | closeDone => exact not_enabled_of_stop hp rfl
  | dmaMove _ _ => simp [enabled, hbusy]
  | soeEmit _ => simp [enabled, hq]
  | srcOpenRsp _ _ | srcReadRsp _ _ _ | srcCloseRsp => simp [enabled, hreq]
  | hostWrite _ _ | hostRead _ _ | reset => exact absurd hi nofun

/-- Settles O52: a final state is quiescent, and in its phase `STOP` a host access is only traced. -/
theorem finalStatesAreQuiescent : Obligations.FinalStatesAreQuiescent := by
  intro s hs
  refine ⟨s.quiescent_of_final hs, fun ⟨_, hnot⟩ => hnot hs, fun ofs v hlt hmod => ?_⟩
  have hin := (offsetInside_iff ofs).2 hlt
  have hal := (offsetAligned_iff ofs).2 hmod
  obtain ⟨hp, _⟩ := hs
  exact ⟨⟨_, exec_hostWrite_of_stop hp hin hal v, rfl⟩, ⟨_, hostAccessed_done hin hal _, rfl⟩⟩

end Sys2Proof.Machine
end

section
/-! The end of a session (45_termination.md R185, 60_exceptions.md R200, R201): the five actions that set `CAUSE`. -/

namespace Sys2Proof.Machine

variable {s t : State}

/-- R185: the five transitions that end a session. -/
def endsSession : Instr → Bool
  | .openFail | .primeEmpty | .primeErr | .fillErr _ | .fillEos _ => true
  | _ => false

/-- R201: no effect but those that end a session, and that of a reset, writes `CAUSE`. -/
theorem Effect.cause_eq {i : Instr} (h : Effect i s t) (hreset : i ≠ .reset) (hend : endsSession i = false) :
    t.sch.cause = s.sch.cause := by
  cases i with
  | startOpen | fillOk _ _ | closeDone =>
    obtain ⟨_, rfl⟩ := h
    rfl
  | fillReq _ _ =>
    obtain ⟨_, _, rfl⟩ := h
    rfl
  | openOk _ | primeShort _ | fillShort _ _ =>
    obtain ⟨_, _, _, rfl⟩ := h
    rfl
  | primeIssue _ =>
    obtain ⟨_, _, _, _, _, rfl⟩ := h
    rfl
  | waitIssue _ _ =>
    obtain ⟨_, _, _, _, rfl⟩ := h
    simp
  | hostWrite _ _ | hostRead _ _ | dmaMove _ _ | soeEmit _ | srcOpenRsp _ _ | srcReadRsp _ _ _ | srcCloseRsp =>
    rw [h.sch_eq_of_other_agent hreset rfl]
  | openFail | primeErr | primeEmpty | fillErr _ | fillEos _ => exact absurd hend nofun
  | reset => exact absurd rfl hreset

/-- R200: where an action sets `CAUSE` from `NONE`, it took the effect of one that ends a session. -/
theorem exec_effect_of_cause_set {i : Instr} (h : exec i s = .next t) (hnone : s.sch.cause = .none)
    (hset : t.sch.cause ≠ .none) : endsSession i = true ∧ Effect i s t := by
  rcases exec_cases i h with rfl | rfl | ⟨f, rfl⟩ | heff
  · exact absurd hnone hset
  · exact absurd hnone hset
  · exact absurd hnone hset
  · by_cases hreset : i = .reset
    · subst hreset
      cases h
      exact absurd rfl hset
    · refine ⟨?_, heff⟩
      rw [← Bool.not_eq_false]
      intro hend
      exact hset ((heff.cause_eq hreset hend).trans hnone)

/-- Settles O48: the five effects, four of which close the source (R201). -/
theorem aSessionEndsInOneOfFiveWays : Obligations.ASessionEndsInOneOfFiveWays := by
  intro i s t h hnone hset
  obtain ⟨hend, heff⟩ := exec_effect_of_cause_set h hnone hset
  cases i with
  | openFail =>
    obtain ⟨_, rfl⟩ := heff
    exact ⟨rfl, rfl, rfl, rfl, .inl ⟨rfl, rfl, rfl, rfl, rfl, rfl, rfl⟩⟩
  | primeEmpty =>
    obtain ⟨_, _, rfl⟩ := heff
    exact ⟨rfl, rfl, rfl, rfl, .inr ⟨rfl, rfl, rfl, rfl, rfl, .inl ⟨rfl, rfl, rfl, rfl⟩⟩⟩
  | primeErr =>
    obtain ⟨_, _, rfl⟩ := heff
    exact ⟨rfl, rfl, rfl, rfl, .inr ⟨rfl, rfl, rfl, rfl, rfl, .inr (.inl ⟨rfl, rfl, rfl, rfl⟩)⟩⟩
  | fillErr f =>
    obtain ⟨_, _, rfl⟩ := heff
    exact ⟨rfl, rfl, rfl, rfl, .inr ⟨rfl, rfl, rfl, rfl, rfl, .inr (.inr (.inl ⟨⟨f, rfl⟩, rfl, rfl, rfl⟩))⟩⟩
  | fillEos f =>
    obtain ⟨_, _, rfl⟩ := heff
    exact ⟨rfl, rfl, rfl, rfl, .inr ⟨rfl, rfl, rfl, rfl, rfl, .inr (.inr (.inr ⟨⟨f, rfl⟩, rfl, rfl, rfl⟩))⟩⟩
  | startOpen | openOk _ | primeShort _ | primeIssue _ | fillReq _ _ | fillShort _ _ | fillOk _ _ | waitIssue _ _
  | closeDone | hostWrite _ _ | hostRead _ _ | dmaMove _ _ | soeEmit _ | srcOpenRsp _ _ | srcReadRsp _ _ _
  | srcCloseRsp | reset => exact absurd hend nofun

end Sys2Proof.Machine
end

section
/-! The Block Source (46_block_source.md R190 to R194): the request the scheduler posts, and the source's three answers
to it. -/

namespace Sys2Proof

/-- R92, R94: `ERR` and `BUF` as the two bits above the action code, with nothing but zeros between them and `ARG`. -/
theorem packRecord_err_buf_eq_append (act : BitVec 8) (buf err : Bool) (arg : Word) :
    packRecord act buf err 0#8 arg = arg ++ 0#22 ++ BitVec.ofBool err ++ (BitVec.ofBool buf ++ act : BitVec 9) := by
  have hzeros : arg ++ 0#8 ++ 0#8 ++ 0#6 = arg ++ 0#22 := by
    rw [BitVec.append_assoc, BitVec.append_assoc]
    rfl
  rw [packRecord, hzeros, BitVec.append_assoc, BitVec.cast_eq]

/-- R92, R193: the record of the answer to a read. -/
theorem encode_srcReadRsp (f : Buf) (err : Bool) (b : Word) :
    encode (.srcReadRsp f err b) =
      b ++ 0#22 ++ BitVec.ofBool err ++ (match f with | .a => 0x071#9 | .b => 0x171#9) := by
  cases f with
  | a => exact packRecord_err_buf_eq_append 0x71#8 false err b
  | b => exact packRecord_err_buf_eq_append 0x71#8 true err b

/-- R92, R192: the record of the answer to an `open`. -/
theorem encode_srcOpenRsp (err : Bool) (h : Word) :
    encode (.srcOpenRsp err h) = h ++ (if err = true then 0x00000270#32 else 0x00000070#32 : Word) := by
  cases err with
  | false => exact packRecord_eq_append 0x70#8 false false 0#8 h
  | true => exact packRecord_eq_append 0x70#8 false true 0#8 h

end Sys2Proof

namespace Sys2Proof.Machine

variable {s : State}

/-! ### The request -/

/-- Settles O19: the checks of `SrcRequest` pass, and each field of the request is the one `State.request` gives it. -/
theorem srcRequestPostsOneRequest : Obligations.SrcRequestPostsOneRequest := by
  intro s op f n hreq hrsp hown
  refine ⟨s.request op f n, srcRequest_succeeds hreq hrsp hown, rfl, rfl, rfl, rfl, fun hop => ?_, fun hop => ?_, ?_⟩
  · exact ⟨if_pos hop, if_pos hop⟩
  · exact ⟨if_neg hop, if_neg hop⟩
  · cases f with
    | a => rfl
    | b => rfl

/-! ### The answers to `open` and `close` -/

/-- Settles O38: the guard of R192 holds, and an `open` is answered whatever the draw. -/
theorem srcOpenRspAnswersOpen : Obligations.SrcOpenRspAnswersOpen := by
  intro s err h hreq hop hrsp
  have hc : canRespond s .opn := ⟨hreq, hop, hrsp⟩
  rw [← encode_srcOpenRsp]
  exact attempt_ok hc

/-- Settles O40: the guard of R194 holds, and a `close` is acknowledged without a draw. -/
theorem srcCloseRspAcknowledgesClose : Obligations.SrcCloseRspAcknowledgesClose := by
  intro s hreq hop hrsp
  have hc : canRespond s .close := ⟨hreq, hop, hrsp⟩
  exact attempt_ok hc

/-! ### The data bytes of a read -/

/-- R193: byte `k` the source delivers is that of the feed, and past its end the next free byte. -/
theorem Env.getElem?_bytes (e : Env) {n k : Nat} (hk : k < n) :
    (e.bytes n)[k]? = some (e.feed[k]?.getD (Config.freeByte (e.draws + (k - e.feed.length)))) := by
  by_cases hfeed : k < e.feed.length
  · have hk' : k < (e.feed.take n).length := by
      rw [List.length_take]
      omega
    rw [Env.bytes, List.getElem?_append_left hk', List.getElem?_take_of_lt hk, List.getElem?_eq_getElem hfeed,
      Option.getD_some]
  · have hlen : (e.feed.take n).length = e.feed.length := by
      rw [List.length_take]
      omega
    have hrest : k - e.feed.length < n - e.feed.length := by omega
    rw [Env.bytes, List.getElem?_append_right (by omega), hlen, List.getElem?_map, List.getElem?_range hrest,
      List.getElem?_eq_none (Nat.not_lt.1 hfeed), Option.map_some, Option.getD_none]

/-- R64: as many bytes as a buffer holds can be written from its base. -/
theorem memWriteAll_of_fits {p : Params} (m : Memory) (i : Buf) {d : List Byte}
    (hfits : d.length ≤ p.bufferSize.toNat) : ∃ m', memWriteAll p m (bufBase p i).toNat d = .ok m' :=
  memWriteAll_succeeds d m _ fun _ hk => inBuffer_of_mem_region i (Nat.le_add_right _ _) (by omega)

/-! ### The answer to a read -/

/-- R193, R209: more bytes than requested, or bytes beside an error, are outside the contract, whoever owns the buffer. -/
theorem readAnswer_outside_contract {err : Bool} {b : Word}
    (h : s.sch.req.len.toNat < b.toNat ∨ (err = true ∧ b ≠ 0#32)) : readAnswer err b s = .error .srcContract := by
  unfold readAnswer
  split
  · rfl
  · next hlen => exact if_pos (h.resolve_left hlen)

section
variable {err : Bool} {b : Word} (hlen : b.toNat ≤ s.sch.req.len.toNat) (herr : err = true → b = 0#32)
include hlen herr

/-- R193, R209: inside the contract an owned buffer is an ownership fault. -/
theorem readAnswer_owned (hown : s.sch.own s.sch.req.buf = true) : readAnswer err b s = .error .ownership := by
  rw [readAnswer, if_neg (BitVec.not_lt.2 hlen), if_neg (not_and_not_right.2 herr), if_pos hown]

/-- R193: inside the contract, into a buffer the channel does not own, the answer writes what can be written. -/
theorem readAnswer_written {m : Memory} (hown : s.sch.own s.sch.req.buf = false)
    (hm : memWriteAll s.params.toParams s.bufmem (bufBase s.params.toParams s.sch.req.buf).toNat
      (s.env.bytes b.toNat) = .ok m) :
    readAnswer err b s =
      .ok ((({ s with bufmem := m, env := s.env.afterBytes b.toNat } : State).respond .read err b 0#32).emit
        (.srcReadRsp s.sch.req.buf err b)) := by
  rw [readAnswer, if_neg (BitVec.not_lt.2 hlen), if_neg (not_and_not_right.2 herr),
    if_neg (ne_true_of_eq_false hown), hm, map_ok]

end

/-- Settles O39: the request fits its buffer, so that the block of data bytes is written whole from the base; outside the
contract `SRC_CONTRACT` comes before `OWNERSHIP` (R209). -/
theorem srcReadRspFillsTheRequestedBuffer : Obligations.SrcReadRspFillsTheRequestedBuffer := by
  intro s x err b hreq hop hrsp
  have hc : canRespond s .read := ⟨hreq, hop, hrsp⟩
  have hexec : exec (.srcReadRsp x err b) s = attempt s (canRespond s .read) (readAnswer err b s) := rfl
  refine ⟨fun hlen hsize herr hfree => ?_, fun hbad => ?_, fun hlen herr howned => ?_⟩
  · have hcount : (s.env.bytes b.toNat).length = b.toNat := s.env.length_bytes b.toNat
    obtain ⟨m, hm⟩ := memWriteAll_of_fits (p := s.params.toParams) s.bufmem s.sch.req.buf
      (hcount.trans_le (hlen.trans hsize))
    refine ⟨_, by rw [hexec, readAnswer_written hlen herr hfree hm, attempt_ok hc], fun k hk => ?_, fun a ha => ?_, ?_⟩
    · have hread := memWriteAll_read_inside hm k (hcount.symm ▸ hk)
      rw [s.env.getElem?_bytes hk] at hread
      refine hread.trans ?_
      cases s.env.feed[k]? with
      | some v => rfl
      | none => rfl
    · exact memWriteAll_read_outside hm a (hcount.symm ▸ ha)
    · rw [State.emit, encode_srcReadRsp]
      rfl
  · rw [hexec, readAnswer_outside_contract hbad, attempt_error hc]
    rfl
  · rw [hexec, readAnswer_owned hlen herr howned, attempt_error hc]
    rfl

end Sys2Proof.Machine
end

section
/-! Raising a fault (60_exceptions.md R207 to R209): what a faulting step changes, which fault a primitive raises, and what
can raise one at all. -/

namespace Sys2Proof.Machine

variable {s t : State}

/-! ### A step that raises a fault -/

/-- R95: every effect but that of `RESET` appends the record of its action, and so changes the trace. -/
theorem Effect.trace_ne {i : Instr} (h : Effect i s t) (hreset : i ≠ .reset) : t.trace ≠ s.trace := by
  have snoc_ne (r : Record) : s.trace ++ [r] ≠ s.trace := by simp
  cases i with
  | startOpen | openFail | fillOk _ _ | closeDone | srcOpenRsp _ _ | srcCloseRsp =>
    obtain ⟨_, rfl⟩ := h
    exact snoc_ne _
  | primeErr | primeEmpty | fillReq _ _ | fillErr _ | fillEos _ | hostRead _ _ =>
    obtain ⟨_, _, rfl⟩ := h
    exact snoc_ne _
  | openOk _ | primeShort _ | fillShort _ _ =>
    obtain ⟨_, _, _, rfl⟩ := h
    exact snoc_ne _
  | waitIssue _ _ =>
    obtain ⟨_, _, _, _, rfl⟩ := h
    exact snoc_ne _
  | primeIssue _ =>
    obtain ⟨_, _, _, _, _, rfl⟩ := h
    exact snoc_ne _
  | hostWrite ofs v =>
    obtain ⟨_, _, rfl⟩ := h
    rw [State.hostStore_eq]
    exact snoc_ne _
  | dmaMove _ _ =>
    obtain ⟨_, w, _, rfl⟩ := h
    exact snoc_ne _
  | soeEmit _ =>
    obtain ⟨w, q, _, rfl⟩ := h
    exact snoc_ne _
  | srcReadRsp _ _ _ =>
    obtain ⟨_, _, _, _, m, _, rfl⟩ := h
    exact snoc_ne _
  | reset => exact absurd rfl hreset

/-- R183: a recorded fault keeps a run from its end. -/
theorem State.not_final_of_faults (hf : s.faults ≠ 0#10) : ¬s.final := by
  rintro ⟨_, _, _, _, _, hnone, _⟩
  exact hf hnone

/-- R208: raising a fault clears no fault. -/
theorem State.faults_and_raise (s : State) (f : Fault) : s.faults &&& (s.raise f).faults = s.faults := by
  rw [State.raise_faults]
  ext k
  simpa using Or.inl

/-- Settles O13: of the four things an action can do, only a fault changes `FAULTS` and only an effect changes `TRACE`. -/
theorem aFaultingStepHasNoOtherEffect : Obligations.AFaultingStepHasNoOtherEffect := by
  refine ⟨fun s f => by cases f <;> rfl, fun i s t hreset h => ?_⟩
  rcases exec_cases i h with rfl | rfl | ⟨f, rfl⟩ | heff
  · exact ⟨absurd rfl, fun _ => rfl, absurd rfl, BitVec.and_self, State.not_final_of_faults⟩
  · exact ⟨absurd rfl, fun _ => rfl, absurd rfl, BitVec.and_self, State.not_final_of_faults⟩
  · exact ⟨fun _ => ⟨f, rfl⟩, fun _ => rfl, absurd rfl, s.faults_and_raise f, State.not_final_of_faults⟩
  · obtain ⟨hfaults, _⟩ := heff.marks_eq hreset
    have htrace := heff.trace_ne hreset
    exact ⟨absurd hfaults, fun hsame => absurd hsame htrace, fun _ => hfaults, by rw [hfaults, BitVec.and_self],
      State.not_final_of_faults⟩

/-- Settles O55: under the invariant the one fault is that of an answer outside the contract, and an effect is recorded. -/
theorem onlyTheSourceCanCauseAFault : Obligations.OnlyTheSourceCanCauseAFault := by
  intro i s t hs hreset h hchange htrace
  rcases hs.exec_cases i h with hsame | hrefused | ⟨hraised, hbreaks⟩ | heff
  · exact absurd hsame hchange
  · exact .inl hrefused
  · exact .inr ⟨hraised, hbreaks⟩
  · exact absurd htrace (heff.trace_ne hreset)

/-! ### The order of the checks -/

/-- R100, R131: the range check of `Issue`, in the number of words that fit a buffer. -/
theorem wordCount_bufferSize_lt_iff (p : Params) (w : Word) :
    wordCount p.bufferSize < w ↔ p.bufferSize.toNat / 4 < w.toNat := by
  rw [BitVec.lt_def, toNat_wordCount]

section
variable {i : Buf} {w : Word}

theorem issue_of_busy (hbusy : s.dma.busy = true) : issue i w s = .error .dmaBusy := if_pos hbusy

section
variable (hidle : s.dma.busy = false)
include hidle

theorem issue_of_zero (hw : w = 0#32) : issue i w s = .error .zeroLen := by
  rw [issue, if_neg (ne_true_of_eq_false hidle), if_pos hw]

variable (hw : w ≠ 0#32)
include hw

theorem issue_of_too_long (hlong : s.params.bufferSize.toNat / 4 < w.toNat) : issue i w s = .error .busRange := by
  rw [issue, if_neg (ne_true_of_eq_false hidle), if_neg hw, if_pos ((wordCount_bufferSize_lt_iff _ w).2 hlong)]

theorem issue_of_owned (hfits : w.toNat ≤ s.params.bufferSize.toNat / 4) (hown : s.sch.own i = true) :
    issue i w s = .error .ownership := by
  have hrange : ¬wordCount s.params.bufferSize < w := by
    rw [wordCount_bufferSize_lt_iff]
    exact Nat.not_lt.2 hfits
  rw [issue, if_neg (ne_true_of_eq_false hidle), if_neg hw, if_neg hrange, if_pos hown]

end
end

/-- R63, R64: the bytes of a range lie in buffer A or in buffer B. -/
theorem inBuffer_iff (p : Params) (a n : Nat) :
    inBuffer p a n = true ↔
      (p.baseA.toNat ≤ a ∧ a + n ≤ p.baseA.toNat + p.bufferSize.toNat) ∨
        (p.baseB.toNat ≤ a ∧ a + n ≤ p.baseB.toNat + p.bufferSize.toNat) := by
  simp [inBuffer]

section
variable {p : Params} {m : Memory} {a : Word}

theorem memRead_of_misaligned (ha : a.toNat % 4 ≠ 0) : memRead p m a = .error .misaligned := if_pos ha

variable (ha : a.toNat % 4 = 0)
include ha

theorem memRead_of_outside (hout : inBuffer p a.toNat 4 = false) : memRead p m a = .error .busRange := by
  rw [memRead, if_neg (not_not.2 ha), if_pos hout]

/-- R63: past the first two checks a word with an unwritten byte has one fault left. -/
theorem memRead_of_unwritten (hin : inBuffer p a.toNat 4 = true) {k : Nat} (hk : k < 4)
    (hnone : m.read (a.toNat + k) = none) : memRead p m a = .error .unwrittenRead := by
  rw [memRead, if_neg (not_not.2 ha), if_neg (ne_false_of_eq_true hin)]
  split
  · obtain rfl | rfl | rfl | rfl : k = 0 ∨ k = 1 ∨ k = 2 ∨ k = 3 := by omega
    all_goals simp_all
  · rfl

end

/-- R64: a byte write outside the buffers. -/
theorem memWrite_of_outside {p : Params} {m : Memory} {a : Nat} {v : Byte} (hout : inBuffer p a 1 = false) :
    memWrite p m a v = .error .busRange := if_pos hout

/-- R64: a byte write inside a buffer. -/
theorem memWrite_of_inside {p : Params} {m : Memory} {a : Nat} {v : Byte} (hin : inBuffer p a 1 = true) :
    memWrite p m a v = .ok (m.write a v) := if_neg (ne_false_of_eq_true hin)

/-- R190: a request while one, or its answer, is outstanding. -/
theorem srcRequest_of_outstanding {op : SrcOp} {f : Buf} {n : Word}
    (h : s.sch.req.valid = true ∨ s.sch.rsp.valid = true) : srcRequest op f n s = .error .protocol := if_pos h

/-- Settles O15: primitive by primitive, each clause past the checks before it. -/
theorem faultsAreRaisedInTheirPriority : Obligations.FaultsAreRaisedInTheirPriority := by
  refine ⟨fun s i w => ?_, fun p m a => ?_, fun p m a v => ?_, fun s f err b hreq hop hrsp => ?_, fun s op f n => ?_⟩
  · exact ⟨issue_of_busy, issue_of_zero, issue_of_too_long, issue_of_owned⟩
  · refine ⟨memRead_of_misaligned, fun ha hout => ?_, fun ha hin ⟨k, hk, hnone⟩ => ?_⟩
    · exact memRead_of_outside ha (Bool.eq_false_iff.2 fun hin => hout ((inBuffer_iff p a.toNat 4).1 hin))
    · exact memRead_of_unwritten ha ((inBuffer_iff p a.toNat 4).2 hin) hk hnone
  · refine ⟨fun hout => ?_, fun hin => ?_⟩
    · exact memWrite_of_outside (Bool.eq_false_iff.2 fun hin => hout ((inBuffer_iff p a 1).1 hin))
    · exact ⟨_, memWrite_of_inside ((inBuffer_iff p a 1).2 hin), m.read_write_same a v,
        fun a' ha' => m.read_write_other a a' v ha'⟩
  · obtain ⟨_, hbreaks, howned⟩ := srcReadRspFillsTheRequestedBuffer s f err b hreq hop hrsp
    exact ⟨fun hlong => hbreaks (.inl hlong), fun _ herr hb => hbreaks (.inr ⟨herr, hb⟩), howned⟩
  · refine ⟨srcRequest_of_outstanding, fun hreq hrsp hop hown => ?_⟩
    subst hop
    exact srcRequest_read_owned hreq hrsp hown

/-! ### Reserved control states -/

/-- R22: the eleven pairs, as a list. -/
theorem pairAllowed_iff_mem (st : St) (ph : Ph) :
    pairAllowed st ph = true ↔
      (st, ph) ∈
        [(.idle, .ready), (.idle, .opn), (.idle, .prime), (.primed, .issued), (.streaming, .fill),
          (.streaming, .wait), (.streaming, .issued), (.done, .close), (.done, .stop), (.halted, .close),
          (.halted, .stop)] := by
  cases st <;> cases ph <;> decide

theorem Cause.allowed_iff (c : Cause) : c.allowed = true ↔ c ∉ [.reserved5, .reserved6, .reserved7] := by
  cases c <;> decide

theorem Msg.allowed_iff (m : Msg) : m.allowed = true ↔ m ∉ [.reserved5, .reserved6, .reserved7] := by
  cases m <;> decide

/-- R22: an enabled scheduler action is due, which no action is in an unsound state. -/
theorem not_enabled_of_unsound {i : Instr} (hi : isSchedulerAction i = true) (hs : s.sch.sound = false) :
    enabled i s = false := by
  rw [Bool.eq_false_iff]
  intro he
  obtain ⟨hsound, _⟩ := dueCode_of_enabled hi he
  exact Bool.noConfusion (hs.symm.trans hsound)

/-- Settles O12: every scheduler action has the shape `schStep`, which checks the control state first. -/
theorem reservedControlStateRaisesBadState : Obligations.ReservedControlStateRaisesBadState := by
  refine ⟨fun i s hi hs => ⟨exec_badState hi hs, not_enabled_of_unsound hi hs⟩, fun c => ?_⟩
  rw [c.sound_iff, pairAllowed_iff_mem, Cause.allowed_iff, Msg.allowed_iff]

end Sys2Proof.Machine
end

section
/-! What the two sides of the queue and of the channel may do without waiting for each other (60_exceptions.md R211,
70_reset_and_hazards.md R254). -/

namespace Sys2Proof.Machine

/-- Settles O51: the move takes the same word before and after the emission, which touches neither channel nor memory, or
holds or faults both times. -/
theorem emitAndMoveCommute : Obligations.EmitAndMoveCommute := by
  intro s a b c d f x y hne hroom ha hb hc hd
  obtain ⟨w, q, hq⟩ := List.exists_cons_of_ne_nil hne
  have hroom' : q.length < s.params.queueDepth := by
    rw [hq, List.length_cons] at hroom
    omega
  cases (execSoeEmit_of_cons hq).symm.trans ha
  cases hbusy : s.dma.busy with
  | false =>
    cases (execDmaMove_hold (s := s.emitted w q) (.inl hbusy)).symm.trans hb
    cases (execDmaMove_hold (.inl hbusy)).symm.trans hc
    cases (execSoeEmit_of_cons hq).symm.trans hd
    exact ⟨rfl, .rfl⟩
  | true =>
    have hmove : canDmaMove s := ⟨hbusy, hroom⟩
    have hmove' : canDmaMove (s.emitted w q) := ⟨hbusy, hroom'⟩
    cases hw : memRead s.params.toParams s.bufmem s.dma.readAddr with
    | error e =>
      cases (execDmaMove_of_fault hmove' hw).symm.trans hb
      cases (execDmaMove_of_fault hmove hw).symm.trans hc
      cases (execSoeEmit_of_cons (s := s.raise e) hq).symm.trans hd
      exact ⟨rfl, .rfl⟩
    | ok v =>
      have hq' : (s.moved v (s.soe.q ++ [v])).soe.q = w :: (q ++ [v]) := by rw [hq]; rfl
      cases (execDmaMove_of_word hmove' hw).symm.trans hb
      cases (execDmaMove_of_word hmove hw).symm.trans hc
      cases (execSoeEmit_of_cons hq').symm.trans hd
      refine ⟨rfl, ?_⟩
      simpa using List.Perm.append_left s.trace (.swap ..)

/-- Settles O57: `DONE` leaves the channel idle, and the words pending lie written in the buffer the channel does not own,
so that `Issue` passes its checks. -/
theorem theRetriggerNeedsNoSourceRead : Obligations.TheRetriggerNeedsNoSourceRead := by
  intro s f w hs hp hdone
  obtain ⟨⟨_, hfree⟩, _, hchannel, _⟩ := hs.issuedOnce_of_live (.inr (hs.st_of_wait hp))
  have hidle : s.dma.busy = false := by simpa [hdone] using hchannel
  obtain ⟨hpos, hle, hfill⟩ := (State.pending_iff_of_wait hp).1 hs.pending
  have hwords : s.sch.pendWords ≠ 0#32 := fun h => by simp [h] at hpos
  have hc : canWaitIssue s := ⟨hp, hdone, hidle⟩
  have hreleased : (s.sch.setOwn s.sch.active false).own s.fillable = false :=
    (Sch.own_setOwn_other s.sch s.sch.active false).trans hfree
  have hexec : exec (.waitIssue f w) s = _ :=
    schStep_issue_of_fits hs.control hc hidle hwords (by dsimp only; omega) hreleased
  rw [State.trigger_after_release] at hexec
  refine ⟨by simp [enabled, hs.control, hc], _, hexec, rfl, rfl, rfl, rfl, rfl, hfill⟩

end Sys2Proof.Machine
end

section
/-! Reset and configuration (70_reset_and_hazards.md R230, R231; 00_scope.md R6, R7): the state both leave, and which
parameter sets are admitted. -/

namespace Sys2Proof.Machine

/-! ### Reset -/

/-- R86: `STATUS` of the reset table. -/
theorem State.status_cleared (p : ValidParams) (e : Env) : (State.cleared p e).status = 0#32 := by
  unfold State.status State.draining
  simp only [State.cleared]
  decide

/-- Settles O41: the reset table is evaluated, field by field. -/
theorem resetLeavesTheResetTable : Obligations.ResetLeavesTheResetTable := fun s =>
  ⟨_, rfl, rfl, rfl, rfl, rfl, rfl, rfl, rfl, rfl, rfl, rfl, rfl, rfl, rfl, rfl, rfl, rfl, rfl, rfl, rfl, fun _ => rfl,
    rfl, rfl, State.status_cleared s.params s.env⟩

/-- Settles O42: the values the model names, and what no rule resets. -/
theorem resetChosenValues : Obligations.ResetChosenValues := fun _ => ⟨_, rfl, rfl, rfl, rfl, rfl, rfl⟩

/-! ### Power-on -/

/-- R231: the power-on state is the reset table with the record of the reset. -/
theorem State.powerOn_inv (p : ValidParams) : (State.powerOn p).Inv := (State.cleared_inv p _).emit .reset

/-- Settles O54: the reset table meets the invariant, and a trace of the reset's record alone has moved and emitted no
word. -/
theorem theInvariantsHoldAtReset : Obligations.TheInvariantsHoldAtReset := by
  refine ⟨fun p => ⟨State.powerOn_inv p, State.fifo_of_outputCleared ⟨rfl, rfl, rfl⟩, fun r hr => ?_⟩,
    State.powerOn_inv ValidParams.ps16⟩
  rw [List.mem_singleton.1 hr]
  rfl

/-! ### The parameters -/

/-- R7: two ranges that are not empty are disjoint exactly where they have no common byte. -/
theorem rangesDisjoint_iff {x n y m : Nat} (hn : 0 < n) (hm : 0 < m) :
    rangesDisjoint x n y m = true ↔ ∀ a, ¬((x ≤ a ∧ a < x + n) ∧ y ≤ a ∧ a < y + m) := by
  simp only [rangesDisjoint, Bool.or_eq_true, decide_eq_true_eq]
  refine ⟨fun h a => by omega, fun h => ?_⟩
  have := h (max x y)
  omega

/-- R7: a range is disjoint from a word exactly where none of the word's four bytes is in it. -/
theorem rangesDisjoint_word_iff {x n y : Nat} (hn : 0 < n) :
    rangesDisjoint x n y 4 = true ↔ ∀ k < 4, ¬(x ≤ y + k ∧ y + k < x + n) := by
  rw [rangesDisjoint_iff hn (by decide)]
  refine ⟨fun h k hk => ?_, fun h a ⟨hx, hy⟩ => ?_⟩
  · have := h (y + k)
    omega
  · have := h (a - y)
    omega

theorem Params.valid_iff (p : Params) :
    p.valid = true ↔
      (4 ≤ p.bufferSize.toNat ∧ p.bufferSize.toNat % 4 = 0 ∧ p.baseA.toNat % 4 = 0 ∧ p.baseB.toNat % 4 = 0 ∧
          p.txfAddr.toNat % 4 = 0 ∧ p.regBase.toNat % 4 = 0 ∧ 1 ≤ p.queueDepth) ∧
        rangesDisjoint p.baseA.toNat p.bufferSize.toNat p.baseB.toNat p.bufferSize.toNat = true ∧
        rangesDisjoint p.baseA.toNat p.bufferSize.toNat p.txfAddr.toNat 4 = true ∧
        rangesDisjoint p.baseB.toNat p.bufferSize.toNat p.txfAddr.toNat 4 = true ∧
        p.baseA.toNat + p.bufferSize.toNat ≤ 2 ^ 32 ∧ p.baseB.toNat + p.bufferSize.toNat ≤ 2 ^ 32 := by
  simp [Params.valid, and_assoc]

/-- R6: a multiple of 4 of 32 bits is at most `2^32 - 4`. -/
theorem toNat_le_of_aligned {w : Word} (hw : w.toNat % 4 = 0) : w.toNat ≤ 2 ^ 32 - 4 := by
  have := w.isLt
  omega

/-- Settles O43: the checks of `Params.valid` one by one, those of R7 byte by byte. -/
theorem configurationGivesThePowerOnState : Obligations.ConfigurationGivesThePowerOnState := by
  refine ⟨fun p => ⟨dif_pos p.ok, rfl, rfl⟩, fun p => ?_, fun p hp => dif_neg (ne_true_of_eq_false hp)⟩
  rw [Params.valid_iff]
  constructor
  · rintro ⟨⟨hmin, hsize, hA, hB, htxf, hreg, hdepth⟩, hAB, hAT, hBT, hwrapA, hwrapB⟩
    have hpos : 0 < p.bufferSize.toNat := by omega
    rw [rangesDisjoint_iff hpos hpos] at hAB
    rw [rangesDisjoint_word_iff hpos] at hAT hBT
    exact ⟨⟨hmin, hsize, toNat_le_of_aligned hsize, hA, hB, htxf, hreg, hdepth⟩, hAB,
      fun k hk => ⟨hAT k hk, hBT k hk⟩, hwrapA, hwrapB⟩
  · rintro ⟨⟨hmin, hsize, _, hA, hB, htxf, hreg, hdepth⟩, hAB, hT, hwrapA, hwrapB⟩
    have hpos : 0 < p.bufferSize.toNat := by omega
    rw [rangesDisjoint_iff hpos hpos, rangesDisjoint_word_iff hpos, rangesDisjoint_word_iff hpos]
    exact ⟨⟨hmin, hsize, hA, hB, htxf, hreg, hdepth⟩, hAB, fun k hk => (hT k hk).1, fun k hk => (hT k hk).2, hwrapA,
      hwrapB⟩

end Sys2Proof.Machine
end

section
/-! The turns of a schedule (00_scope.md R12): what is next, and what a record, a raw response and a host action at an
offset that names no register do. -/

namespace Sys2Proof.Machine

variable {s : State}

/-! ### Taking the next turn -/

/-- R12: a step takes the head of the schedule that was placed. -/
theorem step_of_program {τ : Turn} {rest : List Turn} (h : s.env.program = τ :: rest) :
    step s = takeTurn τ { s with env := { s.env with program := rest } } := by
  rw [step, State.nextTurn, State.afterTurn, h]

/-- Past the end of the schedule a step takes the free value. -/
theorem step_of_no_program (h : s.env.program = []) :
    step s = takeTurn (Config.freeTurn s.env.turns) { s with env := { s.env with turns := s.env.turns + 1 } } := by
  rw [step, State.nextTurn, State.afterTurn, h]

/-- R110: a record that decodes is a turn of its action. -/
theorem takeRecord_of_decode {r : Record} {i : Instr} (hr : decode r = some i) : takeRecord r s = exec i s := by
  rw [takeRecord, hr]

/-- R96: an INVALID record is a refused input. -/
theorem takeRecord_of_invalid {r : Record} (hr : decode r = none) : takeRecord r s = .next s.refuse := by
  rw [takeRecord, hr]

/-- Settles O6: by what stands at the head of the schedule. -/
theorem stepRunsTheDecodedAction : Obligations.StepRunsTheDecodedAction :=
  ⟨fun _ _ _ _ h hr => (step_of_program h).trans (takeRecord_of_decode hr), fun _ _ _ h => step_of_program h,
    fun _ _ _ _ _ h => step_of_program h, fun _ h => step_of_no_program h, fun _ _ _ => ⟨rfl, rfl⟩⟩

/-- Settles O7: the turn is taken off the schedule, and its record is a refused input. -/
theorem invalidRecordIsRefused : Obligations.InvalidRecordIsRefused := fun _ _ _ h hr =>
  (step_of_program h).trans (takeRecord_of_invalid hr)

/-! ### Raw responses -/

/-- Settles O9: by the kind of answer that `OP` names. -/
theorem rawResponsesAreTheSourcesAnswers : Obligations.RawResponsesAreTheSourcesAnswers := by
  intro s w0 w1 w2
  refine ⟨fun h => ?_, fun h => ?_, fun h => ?_, fun h => ?_⟩
  · have hop : srspOp w0 = .opn := by rw [srspOp, h]; rfl
    rw [takeResponse, hop]
    rfl
  · have hop : srspOp w0 = .read := by rw [srspOp, h]; rfl
    rw [takeResponse, hop]
    rfl
  · have hop : srspOp w0 = .close := by rw [srspOp, h]; rfl
    rw [takeResponse, hop]
  · have hop : srspOp w0 = .reserved := by rw [srspOp, h]; rfl
    rw [takeResponse, hop]
    rfl

/-! ### Offsets that name no register -/

/-- R89: an offset past the window is not the block's. -/
theorem hostAccessed_outside {ofs : BitVec 8} (hout : offsetInside ofs = false) (u : State) :
    hostAccessed s ofs u = .next s := if_pos hout

/-- Settles O34: the window by the offset, then the alignment. -/
theorem hostActionsAtOtherOffsets : Obligations.HostActionsAtOtherOffsets := by
  intro s ofs v
  refine ⟨fun hlt hmod => ?_, fun hge => ?_⟩
  · have hin := (offsetInside_iff ofs).2 hlt
    have hal : offsetAligned ofs = false := by rwa [Bool.eq_false_iff, Ne, offsetAligned_iff]
    exact ⟨hostAccessed_refused hin hal _, hostAccessed_refused hin hal _⟩
  · have hout : offsetInside ofs = false := by
      rw [Bool.eq_false_iff, Ne, offsetInside_iff]
      exact Nat.not_lt.2 hge
    exact ⟨hostAccessed_outside hout _, hostAccessed_outside hout _⟩

end Sys2Proof.Machine
end

section
/-! The form of the buffer memory (20_memory.md): every step keeps its addresses strictly rising. -/

namespace Sys2Proof.Machine

variable {s t : State}

/-- R42, R193: an effect leaves the memory, writes an answer's bytes into it one by one, or empties it. -/
theorem Effect.bufmem_wf {i : Instr} (h : Effect i s t) (hs : s.bufmem.wf) : t.bufmem.wf := by
  cases i with
  | srcReadRsp f err b =>
    obtain ⟨_, _, _, _, m, hm, rfl⟩ := h
    exact memWriteAll_wf hm hs
  | reset =>
    cases h
    exact Memory.wf_nil
  | _ => rwa [h.bufmem_eq nofun nofun]

theorem exec_bufmem_wf (i : Instr) (h : exec i s = .next t) (hs : s.bufmem.wf) : t.bufmem.wf := by
  rcases exec_cases i h with rfl | rfl | ⟨f, rfl⟩ | heff
  · exact hs
  · exact hs
  · exact hs
  · exact heff.bufmem_wf hs

theorem takeTurn_bufmem_wf (τ : Turn) (h : takeTurn τ s = .next t) (hs : s.bufmem.wf) : t.bufmem.wf := by
  rcases takeTurn_forms τ s with ⟨i, hi⟩ | hi | hi | hi <;> rw [hi] at h
  · exact exec_bufmem_wf i h hs
  · cases h
    exact hs
  · cases h
    exact hs
  · cases h
    exact hs

/-- Settles O60: taking the turn off the schedule leaves the memory, and the turn keeps its form. -/
theorem memoryStaysCanonical : Obligations.MemoryStaysCanonical := by
  intro s t hs h
  exact takeTurn_bufmem_wf s.nextTurn h (s.afterTurn_bufmem ▸ hs)

end Sys2Proof.Machine
end
